-- ==== Sys2Proof/Word.lean ====
section
/-! DEFINITION. The words of the 8085: bytes (registers, memory cells, ports) and 16-bit words (pairs, SP, PC,
addresses); `00_scope.md` R6. All arithmetic on them is modulo 2^width (R8). -/

namespace Sys2Proof

/-- An 8-bit quantity: a register, a memory location, a port number or a port value (R6). -/
abbrev Byte := BitVec 8

/-- A 16-bit quantity: a register pair, SP, PC or a memory address (R6). -/
abbrev Word := BitVec 16

end Sys2Proof
end

