-- ==== Sys2Proof/Machine/Bits.lean ====
section
/-! DEFINITION. Bit fields, byte order and parity: the slices, concatenations and `parity_even` of `00_scope.md`
R10. -/

namespace Sys2Proof.Machine

/-- `v[15:8]` (R10). -/
def hiByte (v : Word) : Byte := v.extractLsb' 8 8

/-- `v[7:0]` (R10). -/
def loByte (v : Word) : Byte := v.extractLsb' 0 8

/-- `hi ‖ lo` (R10). -/
def joinBytes (hi lo : Byte) : Word := hi ++ lo

/-- A byte written bit by bit, bit 7 first, as the tables of R32 and R220 are. -/
def byteOfBits (b7 b6 b5 b4 b3 b2 b1 b0 : Bool) : Byte :=
  BitVec.ofBool b7 ++ BitVec.ofBool b6 ++ BitVec.ofBool b5 ++ BitVec.ofBool b4 ++
    BitVec.ofBool b3 ++ BitVec.ofBool b2 ++ BitVec.ofBool b1 ++ BitVec.ofBool b0

/-- The low nibble `v[3:0]` as a number. -/
def loNibble (v : Byte) : Nat := v.toNat % 16

/-- The high nibble `v[7:4]` as a number. -/
def hiNibble (v : Byte) : Nat := v.toNat / 16

/-- How many bits of `v` are 1. -/
def onesCount (v : Byte) : Nat := (List.range 8).countP (fun i => v.getLsbD i)

/-- `parity_even(v)`: an even number of 1 bits, 0 among them (R10). -/
def parityEven (v : Byte) : Bool := onesCount v % 2 == 0

end Sys2Proof.Machine
end

