-- ==== Sys2Proof/Config.lean ====
section
/-! DEFINITION. What the spec leaves to the implementation or to the board: the open parameters of `00_scope.md` R7
as plain data, and the free values (`draw(N)` of R10). -/

namespace Sys2Proof

/-- The two readings of the parameters `DAA_FLAGS` and `LOGIC_AC` (R7): what the card says, or what is generally
known of the Intel part. -/
inductive Reading where
  | source
  | intel
deriving DecidableEq, Repr

/-- What `MemMap` says of an address (`20_memory.md` R57). -/
inductive RegionKind where
  | ram
  | rom
  | unmapped
  | device
deriving DecidableEq, Repr

/-- One line of a memory map: the addresses `base` to `base + size - 1`, none above 0xFFFF. -/
structure Region where
  base : Word
  size : Nat
  kind : RegionKind
deriving DecidableEq, Repr

/-- The open parameters that stay fixed while the machine runs (R7): `MemMap` as a list of regions, of which the
first that holds an address decides, an address in none being RAM; and the two flag readings. -/
structure Params where
  memMap   : List Region
  daaFlags : Reading
  logicAc  : Reading
deriving DecidableEq, Repr

/-- The parameters after reset: the default map, all RAM (R7, D22); and the card's own reading of both flag
parameters, which `90_conflicts.md` C10 follows in its default reading.
DESIGN CHOICE (logs 4 and 5), unsafe: the spec gives neither flag parameter a default. -/
def Config.resetParams : Params := ⟨[], .source, .source⟩

/-- The n-th 8-bit free value, `draw(8)` of R10: nothing is known of it (log 10). -/
opaque Config.freeByte : Nat → Byte

/-- The n-th 1-bit free value, `draw(1)` of R10: nothing is known of it (log 10). -/
opaque Config.freeBit : Nat → Bool

end Sys2Proof
end

