-- ==== Sys2Proof/Machine/State.lean ====
section
/-! DEFINITION. The state of the machine as plain data: every piece of state of `10_state.md`, the event history of
`20_memory.md` R56, and the model's own fields, which hold what the environment will present (`IntEnv`, `IoEnv`), the
open parameters of `00_scope.md` R7 and the count of free values drawn. -/

namespace Sys2Proof.Machine

/-- The 65 536 bytes of R39, as the locations that hold a value: address and byte, addresses strictly rising. An
address that is not listed holds no value (R41, U10; log 2). -/
abbrev Memory := List Host.Cell

/-- The seven 8-bit registers (R20). The pairs are views of them (R21). -/
structure Regs where
  a : Byte
  b : Byte
  c : Byte
  d : Byte
  e : Byte
  h : Byte
  l : Byte
deriving DecidableEq, Repr

/-- The five flags (R28). The flag byte RF is a view of them (R32). -/
structure Flags where
  z  : Bool
  s  : Bool
  p  : Bool
  ac : Bool
  cy : Bool
deriving DecidableEq, Repr

/-- Control and status state (R33 to R38): INTE; the masks M7_5, M6_5, M5_5, where true is masked; the latch R7_5;
the output line SOD; halted; ei_delay; trap_ie; trap_pending_rim. -/
structure Control where
  inte    : Bool
  m75     : Bool
  m65     : Bool
  m55     : Bool
  r75     : Bool
  sod     : Bool
  halted  : Bool
  eiDelay : Bool
  trapIe  : Bool
  trapPendingRim : Bool
deriving DecidableEq, Repr

/-- What the environment presents at one instruction boundary: `IntEnv(boundary k)` of R236, and the reset input of
R260 (log 13). `sid = none` is a level the environment leaves open, `draw(1)`. -/
structure Pins where
  reset     : Bool
  trap      : Bool
  rst75edge : Bool
  rst65     : Bool
  rst55     : Bool
  intr      : Bool
  intrInsn  : List Byte
  sid       : Option Bool
deriving DecidableEq, Repr

/-- No request, no reset, serial input open: the default `IntEnv` at every boundary (R236, D15). -/
def Pins.idle : Pins := ⟨false, false, false, false, false, false, [], none⟩

/-- An observable event of R56, R57, R211, R212 or R221: a port read or written, a device location read or written,
a change of the serial output line. -/
inductive Event where
  | portRead (port value : Byte)
  | portWrite (port value : Byte)
  | deviceRead (addr : Word) (value : Byte)
  | deviceWrite (addr : Word) (value : Byte)
  | serialOut (level : Bool)
deriving DecidableEq, Repr

/-- The machine between two steps. `pc` is the address of the next instruction's opcode byte (R26); inside a meaning
it is still the address of the instruction that runs (R11). -/
structure State where
  regs  : Regs
  sp    : Word
  pc    : Word
  flags : Flags
  ctl   : Control
  mem   : Memory
  /-- the environment's sample of the boundary just passed (R236) -/
  pins  : Pins
  /-- the samples of the boundaries to come; idle when the list has ended (log 6) -/
  pinsAhead : List Pins
  /-- the answers of `IoEnv` to the coming port and device reads; free values when the list has ended (log 8) -/
  ioReplies : List Byte
  /-- the event history, oldest first (R56) -/
  history : List Event
  /-- how many free values have been drawn (log 10) -/
  draws : Nat
  /-- the open parameters, which no step changes (R7) -/
  params : Params
deriving DecidableEq, Repr

/-- The ways the machine can stop with a fault: none. There is no synchronous exception, and every instruction
completes for every operand value, every address and every state (`60_exceptions.md` R230). -/
inductive Fault where
deriving DecidableEq, Repr

/-- The ways the model declines to go on. -/
inductive Refusal where
  /-- An instruction that has no meaning in this model, raised by `exec` only, in an arm without a meaning (there is
  none). Safe: nothing can be proved of a step that is refused. -/
  | notModelled (mnemonic : String)
  /-- `IllegalOpcode(byte, pc)`: the byte fetched as an opcode is one of the ten that no row selects (R91, R231).
  Raised by the instruction fetch. Safe: the spec's own refusal. -/
  | illegalOpcode (byte : Byte) (pc : Word)
  /-- An INTR acknowledge at which the device supplies something other than RST n or CALL dir (R240, U13). Raised by
  interrupt entry. Safe: the spec's own refusal. -/
  | intrInstruction (bytes : List Byte)
deriving DecidableEq, Repr

/-- The machine right after reset (R41, R261): PC 0, interrupts disabled and all masked, R7_5, SOD, halted, ei_delay
and the TRAP bits 0, no byte of memory with a value.
DESIGN CHOICE (log 1), unsafe: A, B, C, D, E, H, L, SP and the flags, which the spec leaves unspecified, are 0. -/
def State.reset : State where
  regs  := ⟨0, 0, 0, 0, 0, 0, 0⟩
  sp    := 0
  pc    := 0
  flags := ⟨false, false, false, false, false⟩
  ctl   := ⟨false, true, true, true, false, false, false, false, false, false⟩
  mem   := []
  pins  := Pins.idle
  pinsAhead := []
  ioReplies := []
  history := []
  draws := 0
  params := Config.resetParams

end Sys2Proof.Machine
end

