-- ==== Sys2Proof/Syntax.lean ====
section
/-! DEFINITION. The instructions: one constructor for each of the 74 rows of `30_encoding.md` R88
(`opcode_table.json`), in the card's order. -/

namespace Sys2Proof

/-- The seven 8-bit registers (`30_encoding.md` R83). Code 110, M, is no register (`10_state.md` R22). -/
inductive Reg8 where
  | b | c | d | e | h | l | a
deriving DecidableEq, Repr

/-- The 16-bit register codes (`30_encoding.md` R85): three pairs, each named by its high register, and SP. -/
inductive RegPair where
  | b | d | h | sp
deriving DecidableEq, Repr

/-- The eight conditions `ccc` (`30_encoding.md` R86). -/
inductive Cond where
  | nz | z | nc | c | po | pe | p | m
deriving DecidableEq, Repr

/-- One constructor for each row of the opcode table. `imm` is `byte` or `dobreB`, `dir` an absolute 16-bit address,
`port` an 8-bit port number (R81, R84). -/
inductive Instr where
  | movRR (dst src : Reg8)
  | movRM (dst : Reg8)
  | movMR (src : Reg8)
  | mviR (dst : Reg8) (imm : Byte)
  | mviM (imm : Byte)
  | lxi (rp : RegPair) (imm : Word)
  | lda (dir : Word)
  | sta (dir : Word)
  | lhld (dir : Word)
  | shld (dir : Word)
  | ldax (rp : RegPair)
  | stax (rp : RegPair)
  | xchg
  | addR (src : Reg8)
  | addM
  | adi (imm : Byte)
  | adcR (src : Reg8)
  | adcM
  | aci (imm : Byte)
  | subR (src : Reg8)
  | subM
  | sui (imm : Byte)
  | sbbR (src : Reg8)
  | sbbM
  | sbi (imm : Byte)
  | inrR (reg : Reg8)
  | inrM
  | dcrR (reg : Reg8)
  | dcrM
  | inx (rp : RegPair)
  | dcx (rp : RegPair)
  | dad (rp : RegPair)
  | daa
  | cmpR (src : Reg8)
  | cmpM
  | cpi (imm : Byte)
  | anaR (src : Reg8)
  | anaM
  | ani (imm : Byte)
  | xraR (src : Reg8)
  | xraM
  | xri (imm : Byte)
  | oraR (src : Reg8)
  | oraM
  | ori (imm : Byte)
  | cma
  | rlc
  | rrc
  | ral
  | rar
  | cmc
  | stc
  | jmp (dir : Word)
  | jccc (cc : Cond) (dir : Word)
  | call (dir : Word)
  | cccc (cc : Cond) (dir : Word)
  | ret
  | rccc (cc : Cond)
  | rst (n : BitVec 3)
  | pchl
  | pushRp (rp : RegPair)
  | pushPsw
  | popRp (rp : RegPair)
  | popPsw
  | xthl
  | sphl
  | inPort (port : Byte)
  | outPort (port : Byte)
  | ei
  | di
  | hlt
  | nop
  | rim
  | sim
deriving DecidableEq, Repr

end Sys2Proof
end

