-- ==== Sys2Proof/Machine/Flags.lean ====
section
/-! DEFINITION. Flag computations: `add8` and `sub8` of `10_state.md` R30, Z, S and P of R29, the flag byte of R32,
the conditions of `30_encoding.md` R86, the adjustment of DAA (`41_arithmetic.md` R150). -/

namespace Sys2Proof.Machine

/-- The result, CY and AC of an 8-bit addition or subtraction. -/
structure AluResult where
  res : Byte
  cy  : Bool
  ac  : Bool
deriving DecidableEq, Repr

/-- `add8(a, b, cin)`: CY is the carry out of bit 7, AC the carry out of bit 3 (R30). -/
def add8 (a b : Byte) (cin : Bool) : AluResult :=
  let sum := a.toNat + b.toNat + cin.toNat
  { res := BitVec.ofNat 8 sum
    cy := decide (0xFF < sum)
    ac := decide (0xF < loNibble a + loNibble b + cin.toNat) }

/-- `sub8(a, b, bin)`: CY is the borrow, AC the carry out of bit 3 of `a + (~b) + (1 - bin)` (R30). -/
def sub8 (a b : Byte) (bin : Bool) : AluResult :=
  { res := a - b - BitVec.ofNat 8 bin.toNat
    cy := decide (a.toNat < b.toNat + bin.toNat)
    ac := decide (0xF < loNibble a + loNibble (~~~b) + (1 - bin.toNat)) }

/-- Z, S and P from an 8-bit result, with AC and CY as given (R29). -/
def flagsOf (res : Byte) (ac cy : Bool) : Flags :=
  { z := res == 0, s := res.getLsbD 7, p := parityEven res, ac := ac, cy := cy }

/-- All five flags of an addition, subtraction or compare: "TODOS" (R28, R31). -/
def AluResult.flags (r : AluResult) : Flags := flagsOf r.res r.ac r.cy

/-- The flag byte RF: `S ‖ Z ‖ x ‖ AC ‖ x ‖ P ‖ x ‖ CY`, bits 5, 3 and 1 taken from the byte `free` (R32, log 9). -/
def flagByte (f : Flags) (free : Byte) : Byte :=
  byteOfBits f.s f.z (free.getLsbD 5) f.ac (free.getLsbD 3) f.p (free.getLsbD 1) f.cy

/-- The flags that a byte loaded into RF sets; bits 5, 3 and 1 are ignored (R32). -/
def flagsOfByte (v : Byte) : Flags :=
  { s := v.getLsbD 7, z := v.getLsbD 6, ac := v.getLsbD 4, p := v.getLsbD 2, cy := v.getLsbD 0 }

/-- `cond(CCC)`: the truth of a condition on the flags (R86, `44_branch.md` R185 item 1). -/
def condHolds (cc : Cond) (f : Flags) : Bool :=
  match cc with
  | .nz => !f.z
  | .z => f.z
  | .nc => !f.cy
  | .c => f.cy
  | .po => !f.p
  | .pe => f.p
  | .p => !f.s
  | .m => f.s

/-- The value AC takes after a logical instruction: 1 for the ANDs; for XRA, XRI, ORA and ORI 1 under `LOGIC_AC =
source` and 0 under `intel` (`42_logical.md` R160). -/
def logicAcAfter (reading : Reading) (isAnd : Bool) : Bool :=
  match reading with
  | .source => true
  | .intel => isAnd

/-- Whether DAA corrects the low digit: `lo > 9 or AC = 1` (R150). -/
def daaLow (a : Byte) (f : Flags) : Bool := decide (9 < loNibble a) || f.ac

/-- Whether DAA corrects the high digit: `hi > 9 or CY = 1 or (hi >= 9 and lo > 9)` (R150). -/
def daaHigh (a : Byte) (f : Flags) : Bool :=
  decide (9 < hiNibble a) || f.cy || (decide (9 ≤ hiNibble a) && decide (9 < loNibble a))

/-- The correction DAA adds to A (R150). -/
def daaCorrection (a : Byte) (f : Flags) : Byte :=
  (if daaLow a f then 0x06 else 0x00) + (if daaHigh a f then 0x60 else 0x00)

/-- `res` of DAA (R150). -/
def daaResult (a : Byte) (f : Flags) : Byte := a + daaCorrection a f

/-- The flags after DAA: unchanged under `DAA_FLAGS = source`; all five written under `intel`, CY never cleared
(R150). -/
def daaFlagsAfter (reading : Reading) (a : Byte) (f : Flags) : Flags :=
  match reading with
  | .source => f
  | .intel =>
    flagsOf (daaResult a f) (decide (0xF < loNibble a + loNibble (daaCorrection a f))) (f.cy || daaHigh a f)

end Sys2Proof.Machine
end

