-- ==== Sys2Proof/Machine/Memory.lean ====
section
/-! DEFINITION. Memory as plain data (`10_state.md` R39) and the memory map (`20_memory.md` R57). -/

namespace Sys2Proof.Machine

/-- What an address that is not listed holds: no value (R41, U10; log 2). -/
def Memory.unlisted : Option Byte := none

/-- The value a location holds, if it holds one. -/
def Memory.get : Memory → Nat → Option Byte
  | [], _ => Memory.unlisted
  | (k, w) :: rest, a => if a = k then some w else Memory.get rest a

/-- A location is given a value. -/
def Memory.set : Memory → Nat → Byte → Memory
  | [], a, v => [(a, v)]
  | (k, w) :: rest, a, v =>
    if a < k then (a, v) :: (k, w) :: rest
    else if a = k then (a, v) :: rest
    else (k, w) :: Memory.set rest a v

/-- The addresses listed rise strictly, from `lo` on, and lie in the address space. -/
def Memory.wfFrom : Nat → Memory → Bool
  | _, [] => true
  | lo, (k, _) :: rest => decide (lo ≤ k) && decide (k < 65536) && Memory.wfFrom (k + 1) rest

/-- The canonical form: addresses strictly rising, all below 2^16. A listed byte never equals what an unlisted
address holds, which is no value. -/
def Memory.wf (m : Memory) : Bool := Memory.wfFrom 0 m

/-- The region holds the address. A region does not wrap past 0xFFFF (log 3). -/
def regionHolds (r : Region) (a : Word) : Bool :=
  decide (r.base.toNat ≤ a.toNat) && decide (a.toNat < r.base.toNat + r.size)

/-- What `MemMap` says of an address: the first region that holds it decides; RAM if none does (R57, D22). -/
def kindIn : List Region → Word → RegionKind
  | [], _ => .ram
  | r :: rest, a => if regionHolds r a then r.kind else kindIn rest a

/-- The kind of an address in this machine. -/
def State.kindAt (s : State) (a : Word) : RegionKind := kindIn s.params.memMap a

/-- The value that the memory cell at an address holds, if it holds one: the read of one byte that frame statements
use. It says nothing of unmapped and device addresses, whose reads `State.read8` describes. -/
def State.cell (s : State) (a : Word) : Option Byte := s.mem.get a.toNat

end Sys2Proof.Machine
end

