-- ==== Sys2Proof/Machine/Ops.lean ====
section
/-! DEFINITION. The named operations over registers, memory, ports and the stack; entering an interrupt, which is all
the taking of exceptions this hardware has (`60_exceptions.md` R230, R238), and `pop16`, by which a routine returns
(R242). -/

namespace Sys2Proof.Machine

/-! ## Registers -/

/-- `x[c]`: the register's value (R10, R20). -/
def State.reg (s : State) (r : Reg8) : Byte :=
  match r with
  | .a => s.regs.a
  | .b => s.regs.b
  | .c => s.regs.c
  | .d => s.regs.d
  | .e => s.regs.e
  | .h => s.regs.h
  | .l => s.regs.l

/-- The registers after `x[c] <- v`. -/
def Regs.write (g : Regs) (r : Reg8) (v : Byte) : Regs :=
  match r with
  | .a => { g with a := v }
  | .b => { g with b := v }
  | .c => { g with c := v }
  | .d => { g with d := v }
  | .e => { g with e := v }
  | .h => { g with h := v }
  | .l => { g with l := v }

/-- `x[c] <- v` (R10). No register is hard-wired (R20). -/
def State.setReg (s : State) (r : Reg8) (v : Byte) : State := { s with regs := s.regs.write r v }

/-- `A <- v`. -/
def State.setA (s : State) (v : Byte) : State := { s with regs := { s.regs with a := v } }

/-- The 16-bit view HL, H the high byte (R21). -/
def State.hl (s : State) : Word := joinBytes s.regs.h s.regs.l

/-- `rp[c]`: the value of a pair or of SP (R10, R21). -/
def State.pair (s : State) (rp : RegPair) : Word :=
  match rp with
  | .b => joinBytes s.regs.b s.regs.c
  | .d => joinBytes s.regs.d s.regs.e
  | .h => s.hl
  | .sp => s.sp

/-- `rp[c] <- v`: both halves of the pair, or SP (R10, R21). -/
def State.setPair (s : State) (rp : RegPair) (v : Word) : State :=
  match rp with
  | .b => { s with regs := { s.regs with b := hiByte v, c := loByte v } }
  | .d => { s with regs := { s.regs with d := hiByte v, e := loByte v } }
  | .h => { s with regs := { s.regs with h := hiByte v, l := loByte v } }
  | .sp => { s with sp := v }

/-- The flags are replaced. -/
def State.setFlags (s : State) (f : Flags) : State := { s with flags := f }

/-- `PC <- t` (R185 item 2). -/
def State.jump (s : State) (t : Word) : State := { s with pc := t }

/-- `pc <- pc + length` modulo 2^16 (R27). -/
def State.advance (s : State) (n : Nat) : State := s.jump (s.pc + BitVec.ofNat 16 n)

/-! ## Free values, the environment's answers and the event history -/

/-- `draw(8)` (R10): the next free value, and the state with the count moved on. -/
def State.draw8 (s : State) : Byte × State := (Config.freeByte s.draws, { s with draws := s.draws + 1 })

/-- `draw(1)` (R10). -/
def State.draw1 (s : State) : Bool × State := (Config.freeBit s.draws, { s with draws := s.draws + 1 })

/-- An event is appended to the history (R56, R212). -/
def State.record (s : State) (e : Event) : State := { s with history := s.history ++ [e] }

/-- A change of SOD from its level `old` is an observable event (R221; log 14): the new level is recorded, and nothing
where the level is the old one. What SIM and the reset input share. -/
def State.recordSod (s : State) (old : Bool) : State :=
  { s with history := if s.ctl.sod = old then s.history else s.history ++ [.serialOut s.ctl.sod] }

/-- The value `IoEnv` answers a read with: its next reply, or a free value (R56, D23; log 8). -/
def State.envReply (s : State) : Byte × State :=
  match s.ioReplies with
  | [] => s.draw8
  | v :: rest => (v, { s with ioReplies := rest })

/-- `IoRead(port)`: the environment's value, recorded as an event (R56, R211). -/
def State.ioRead (s : State) (port : Byte) : Byte × State :=
  let r := s.envReply
  (r.1, r.2.record (.portRead port r.1))

/-- `IoWrite(port, v)`: recorded as an event; nothing else changes (R56, R212). -/
def State.ioWrite (s : State) (port v : Byte) : State := s.record (.portWrite port v)

/-! ## Memory -/

/-- What RAM or ROM answers: the value of the cell, or a free value where the cell holds none (R57, U10; log 2). -/
def State.readCell (s : State) (a : Word) : Byte × State :=
  match s.cell a with
  | some v => (v, s)
  | none => s.draw8

/-- `MemRead(a, 1)` under `MemMap` (R57). -/
def State.read8 (s : State) (a : Word) : Byte × State :=
  match s.kindAt a with
  | .ram => s.readCell a
  | .rom => s.readCell a
  | .unmapped => s.draw8
  | .device =>
    let r := s.envReply
    (r.1, r.2.record (.deviceRead a r.1))

/-- `MemWrite(a, 1, v)` under `MemMap`: only RAM changes (R57). -/
def State.write8 (s : State) (a : Word) (v : Byte) : State :=
  match s.kindAt a with
  | .ram => { s with mem := s.mem.set a.toNat v }
  | .rom => s
  | .unmapped => s
  | .device => s.record (.deviceWrite a v)

/-- `MemRead(a, 2)`: the byte at `a` first, then the byte at `a + 1` modulo 2^16, which is the high one (R10, R50,
R52). -/
def State.read16 (s : State) (a : Word) : Word × State :=
  let lo := s.read8 a
  let hi := lo.2.read8 (a + 1)
  (joinBytes hi.1 lo.1, hi.2)

/-- `MemWrite(a, 2, v)`: `v[7:0]` to `a`, then `v[15:8]` to `a + 1` modulo 2^16 (R10, R50, R52). -/
def State.write16 (s : State) (a : Word) (v : Word) : State :=
  (s.write8 a (loByte v)).write8 (a + 1) (hiByte v)

/-! ## The stack -/

/-- `push16(v)`: the high byte to SP - 1, then the low byte to SP - 2, then SP less 2 (R185 item 3). -/
def State.push16 (s : State) (v : Word) : State :=
  let t := (s.write8 (s.sp - 1) (hiByte v)).write8 (s.sp - 2) (loByte v)
  { t with sp := s.sp - 2 }

/-- `pop16()`: the low byte from SP, then the high byte from SP + 1; SP plus 2 (R185 item 3). -/
def State.pop16 (s : State) : Word × State :=
  let r := s.read16 s.sp
  (r.1, { r.2 with sp := s.sp + 2 })

/-- `push16(ret); PC <- target`: what CALL, a taken Cccc, RST and interrupt entry share (R185, R188). -/
def State.callTo (s : State) (ret target : Word) : State := (s.push16 ret).jump target

/-- `PC <- pop16()`: RET and a taken Rccc, and so the return from an interrupt routine (R190, R242). -/
def State.popPc (s : State) : State :=
  let r := s.pop16
  r.2.jump r.1

/-! ## Entering an interrupt -/

/-- Interrupt entry, shared by all five sources (R238 step 5, R240): the halt ends, INTE is cleared, PC is pushed and
execution goes to `target`. Nothing else is saved and no mask changes. -/
def State.enterInterrupt (s : State) (target : Word) : State :=
  let t := { s with ctl := { s.ctl with halted := false, inte := false } }
  t.callTo t.pc target

end Sys2Proof.Machine
end

