-- ==== Sys2Proof/Machine/Operands.lean ====
section
/-! DEFINITION. The operand forms of the arithmetic and logical instructions (`41_arithmetic.md` R130,
`42_logical.md` R160) and what those instructions do with an operand's value. An operand is a value together with the
state after it has been read; only M reads memory. -/

namespace Sys2Proof.Machine

/-- The `r` form: `x[FFF]` (R130). -/
def State.regOperand (s : State) (r : Reg8) : Byte × State := (s.reg r, s)

/-- The `M` form: `MemRead(HL, 1)` (R22, R130). -/
def State.memOperand (s : State) : Byte × State := s.read8 s.hl

/-- The `byte` form: `imm8` (R130). -/
def State.immOperand (s : State) (v : Byte) : Byte × State := (v, s)

/-- `(res, CY, AC) = add8(A, v, cin); A <- res; Z, S, P from res` (R131 to R136). -/
def addToA (o : Byte × State) (cin : Bool) : State :=
  let r := add8 o.2.regs.a o.1 cin
  (o.2.setA r.res).setFlags r.flags

/-- `(res, CY, AC) = sub8(A, v, bin); A <- res; Z, S, P from res` (R137 to R142). -/
def subFromA (o : Byte × State) (bin : Bool) : State :=
  let r := sub8 o.2.regs.a o.1 bin
  (o.2.setA r.res).setFlags r.flags

/-- `(res, CY, AC) = sub8(A, v, 0); Z, S, P from res`, the result discarded (R151 to R153). -/
def compareWithA (o : Byte × State) : State := o.2.setFlags (sub8 o.2.regs.a o.1 false).flags

/-- `A <- res` and the flags of a logical instruction: CY 0, AC by `LOGIC_AC`, Z, S, P from `res` (R160). -/
def logicToA (s : State) (res : Byte) (isAnd : Bool) : State :=
  (s.setA res).setFlags (flagsOf res (logicAcAfter s.params.logicAc isAnd) false)

/-- The three AND forms (R161 to R163). -/
def andToA (o : Byte × State) : State := logicToA o.2 (o.2.regs.a &&& o.1) true

/-- The three XOR forms (R164 to R166). -/
def xorToA (o : Byte × State) : State := logicToA o.2 (o.2.regs.a ^^^ o.1) false

/-- The three OR forms (R167 to R169). -/
def orToA (o : Byte × State) : State := logicToA o.2 (o.2.regs.a ||| o.1) false

/-- The flags INR writes from the operand `v`: Z, S, P of `v + 1`, AC when `v[3:0] = 0xF`; CY stays (R143). -/
def incFlags (f : Flags) (v : Byte) : Flags := flagsOf (v + 1) (decide (loNibble v = 0xF)) f.cy

/-- The flags DCR writes from the operand `v`: Z, S, P of `v - 1`, AC when `v[3:0] ≠ 0`; CY stays (R145). -/
def decFlags (f : Flags) (v : Byte) : Flags := flagsOf (v - 1) (decide (loNibble v ≠ 0)) f.cy

end Sys2Proof.Machine
end

