-- ==== Sys2Proof/Machine/Arithmetic.lean ====
section
/-! DEFINITION. Arithmetic instructions (`41_arithmetic.md`). A is the implicit first operand and the destination; the
compares write no register (R130). -/

namespace Sys2Proof.Machine

/-- ADD r (R131). -/
def execAddR (src : Reg8) (s : State) : Host.Outcome State Fault Refusal :=
  .next ((addToA (s.regOperand src) false).advance 1)

/-- ADD M (R132). -/
def execAddM (s : State) : Host.Outcome State Fault Refusal :=
  .next ((addToA s.memOperand false).advance 1)

/-- ADI byte (R133). -/
def execAdi (imm : Byte) (s : State) : Host.Outcome State Fault Refusal :=
  .next ((addToA (s.immOperand imm) false).advance 2)

/-- ADC r (R134). CY is the value before the instruction. -/
def execAdcR (src : Reg8) (s : State) : Host.Outcome State Fault Refusal :=
  .next ((addToA (s.regOperand src) s.flags.cy).advance 1)

/-- ADC M (R135). CY is the value before the instruction. -/
def execAdcM (s : State) : Host.Outcome State Fault Refusal :=
  .next ((addToA s.memOperand s.flags.cy).advance 1)

/-- ACI byte (R136). CY is the value before the instruction. -/
def execAci (imm : Byte) (s : State) : Host.Outcome State Fault Refusal :=
  .next ((addToA (s.immOperand imm) s.flags.cy).advance 2)

/-- SUB r (R137). -/
def execSubR (src : Reg8) (s : State) : Host.Outcome State Fault Refusal :=
  .next ((subFromA (s.regOperand src) false).advance 1)

/-- SUB M (R138). -/
def execSubM (s : State) : Host.Outcome State Fault Refusal :=
  .next ((subFromA s.memOperand false).advance 1)

/-- SUI byte (R139). -/
def execSui (imm : Byte) (s : State) : Host.Outcome State Fault Refusal :=
  .next ((subFromA (s.immOperand imm) false).advance 2)

/-- SBB r (R140). CY is the value before the instruction. -/
def execSbbR (src : Reg8) (s : State) : Host.Outcome State Fault Refusal :=
  .next ((subFromA (s.regOperand src) s.flags.cy).advance 1)

/-- SBB M (R141). CY is the value before the instruction. -/
def execSbbM (s : State) : Host.Outcome State Fault Refusal :=
  .next ((subFromA s.memOperand s.flags.cy).advance 1)

/-- SBI byte (R142). CY is the value before the instruction. -/
def execSbi (imm : Byte) (s : State) : Host.Outcome State Fault Refusal :=
  .next ((subFromA (s.immOperand imm) s.flags.cy).advance 2)

/-- INR r (R143). -/
def execInrR (reg : Reg8) (s : State) : Host.Outcome State Fault Refusal :=
  .next (((s.setReg reg (s.reg reg + 1)).setFlags (incFlags s.flags (s.reg reg))).advance 1)

/-- INR M (R144): a read, then a write, not atomic (R58). -/
def execInrM (s : State) : Host.Outcome State Fault Refusal :=
  let o := s.memOperand
  .next (((o.2.write8 s.hl (o.1 + 1)).setFlags (incFlags s.flags o.1)).advance 1)

/-- DCR r (R145). -/
def execDcrR (reg : Reg8) (s : State) : Host.Outcome State Fault Refusal :=
  .next (((s.setReg reg (s.reg reg - 1)).setFlags (decFlags s.flags (s.reg reg))).advance 1)

/-- DCR M (R146): a read, then a write, not atomic (R58). -/
def execDcrM (s : State) : Host.Outcome State Fault Refusal :=
  let o := s.memOperand
  .next (((o.2.write8 s.hl (o.1 - 1)).setFlags (decFlags s.flags o.1)).advance 1)

/-- INX rp (R147): no flag is written. -/
def execInx (rp : RegPair) (s : State) : Host.Outcome State Fault Refusal :=
  .next ((s.setPair rp (s.pair rp + 1)).advance 1)

/-- DCX rp (R148): no flag is written. -/
def execDcx (rp : RegPair) (s : State) : Host.Outcome State Fault Refusal :=
  .next ((s.setPair rp (s.pair rp - 1)).advance 1)

/-- DAD rp (R149): CY is the carry out of bit 15, the only flag written. -/
def execDad (rp : RegPair) (s : State) : Host.Outcome State Fault Refusal :=
  let sum := s.hl.toNat + (s.pair rp).toNat
  .next (((s.setPair .h (BitVec.ofNat 16 sum)).setFlags { s.flags with cy := decide (0xFFFF < sum) }).advance 1)

/-- DAA (R150): the flags are those of the reading `DAA_FLAGS` of this machine. -/
def execDaa (s : State) : Host.Outcome State Fault Refusal :=
  .next (((s.setA (daaResult s.regs.a s.flags)).setFlags
    (daaFlagsAfter s.params.daaFlags s.regs.a s.flags)).advance 1)

/-- CMP r (R151). -/
def execCmpR (src : Reg8) (s : State) : Host.Outcome State Fault Refusal :=
  .next ((compareWithA (s.regOperand src)).advance 1)

/-- CMP M (R152). -/
def execCmpM (s : State) : Host.Outcome State Fault Refusal :=
  .next ((compareWithA s.memOperand).advance 1)

/-- CPI byte (R153). -/
def execCpi (imm : Byte) (s : State) : Host.Outcome State Fault Refusal :=
  .next ((compareWithA (s.immOperand imm)).advance 2)

end Sys2Proof.Machine
end

