-- ==== Sys2Proof/Machine/Branch.lean ====
section
/-! DEFINITION. Jump, call, return and restart instructions (`44_branch.md`). None writes a flag; conditions
read the flags as they stand before the instruction (R185). -/

namespace Sys2Proof.Machine

/-- JMP dir (R186). -/
def execJmp (dir : Word) (s : State) : Host.Outcome State Fault Refusal :=
  .next (s.jump dir)

/-- Jccc dir (R187). -/
def execJccc (cc : Cond) (dir : Word) (s : State) : Host.Outcome State Fault Refusal :=
  .next (if condHolds cc s.flags then s.jump dir else s.advance 3)

/-- CALL dir (R188): the return address is `pc + 3`. -/
def execCall (dir : Word) (s : State) : Host.Outcome State Fault Refusal :=
  .next (s.callTo (s.pc + 3) dir)

/-- Cccc dir (R189). -/
def execCccc (cc : Cond) (dir : Word) (s : State) : Host.Outcome State Fault Refusal :=
  .next (if condHolds cc s.flags then s.callTo (s.pc + 3) dir else s.advance 3)

/-- RET (R190). -/
def execRet (s : State) : Host.Outcome State Fault Refusal :=
  .next s.popPc

/-- Rccc (R191). -/
def execRccc (cc : Cond) (s : State) : Host.Outcome State Fault Refusal :=
  .next (if condHolds cc s.flags then s.popPc else s.advance 1)

/-- The target of RST n: `8·n` (R192). -/
def restartAddress (n : BitVec 3) : Word := BitVec.ofNat 16 (8 * n.toNat)

/-- RST n (R192): the return address is `pc + 1`. -/
def execRst (n : BitVec 3) (s : State) : Host.Outcome State Fault Refusal :=
  .next (s.callTo (s.pc + 1) (restartAddress n))

/-- PCHL (R193). -/
def execPchl (s : State) : Host.Outcome State Fault Refusal :=
  .next (s.jump s.hl)

end Sys2Proof.Machine
end

