-- ==== Sys2Proof/Machine/Control.lean ====
section
/-! DEFINITION. Processor control instructions (`47_control.md`). None writes a flag, and all are always
allowed (R215). -/

namespace Sys2Proof.Machine

/-- EI (R216): `INTE <- 1; ei_delay <- 1`. -/
def execEi (s : State) : Host.Outcome State Fault Refusal :=
  .next ({ s with ctl := { s.ctl with inte := true, eiDelay := true } }.advance 1)

/-- DI (R217): `INTE <- 0; ei_delay <- 0`. -/
def execDi (s : State) : Host.Outcome State Fault Refusal :=
  .next ({ s with ctl := { s.ctl with inte := false, eiDelay := false } }.advance 1)

/-- HLT (R218): PC past the HLT, `halted <- 1`. -/
def execHlt (s : State) : Host.Outcome State Fault Refusal :=
  .next ({ s with ctl := { s.ctl with halted := true } }.advance 1)

/-- NOP (R219). -/
def execNop (s : State) : Host.Outcome State Fault Refusal :=
  .next (s.advance 1)

/-- The level of the serial input: the environment's, or a free value where it leaves it open (R36, U8). -/
def State.serialIn (s : State) : Bool × State :=
  match s.pins.sid with
  | some v => (v, s)
  | none => s.draw1

/-- What RIM reports in bit 3: INTE, or after a TRAP entry, once, INTE from before it (R220, R239). -/
def Control.reportedIe (c : Control) : Bool := if c.trapPendingRim then c.trapIe else c.inte

/-- The byte RIM puts into A: `SID ‖ I7_5 ‖ I6_5 ‖ I5_5 ‖ IE ‖ M7_5 ‖ M6_5 ‖ M5_5` (R220). -/
def rimByte (sid : Bool) (p : Pins) (c : Control) : Byte :=
  byteOfBits sid c.r75 p.rst65 p.rst55 c.reportedIe c.m75 c.m65 c.m55

/-- RIM (R220): A gets the status byte, and the TRAP report is used up (R239). -/
def execRim (s : State) : Host.Outcome State Fault Refusal :=
  let sid := s.serialIn
  let t := sid.2.setA (rimByte sid.1 s.pins s.ctl)
  .next ({ t with ctl := { t.ctl with trapPendingRim := false } }.advance 1)

/-- What SIM makes of the control state: three independent parts, each with its enable bit (R221). -/
def Control.program (c : Control) (cmd : Byte) : Control :=
  { c with
    m75 := if cmd.getLsbD 3 then cmd.getLsbD 2 else c.m75
    m65 := if cmd.getLsbD 3 then cmd.getLsbD 1 else c.m65
    m55 := if cmd.getLsbD 3 then cmd.getLsbD 0 else c.m55
    r75 := if cmd.getLsbD 4 then false else c.r75
    sod := if cmd.getLsbD 6 then cmd.getLsbD 7 else c.sod }

/-- SIM (R221): A is the command byte and is unchanged. -/
def execSim (s : State) : Host.Outcome State Fault Refusal :=
  .next (({ s with ctl := s.ctl.program s.regs.a }.recordSod s.ctl.sod).advance 1)

end Sys2Proof.Machine
end

