-- ==== Sys2Proof/Machine/InOut.lean ====
section
/-! DEFINITION. Input and output instructions (`46_io.md`). -/

namespace Sys2Proof.Machine

/-- IN porta (R211): the flags do not follow A. -/
def execInPort (port : Byte) (s : State) : Host.Outcome State Fault Refusal :=
  let r := s.ioRead port
  .next ((r.2.setA r.1).advance 2)

/-- OUT porta (R212). -/
def execOutPort (port : Byte) (s : State) : Host.Outcome State Fault Refusal :=
  .next ((s.ioWrite port s.regs.a).advance 2)

end Sys2Proof.Machine
end

