-- ==== Sys2Proof/Machine/Logical.lean ====
section
/-! DEFINITION. Logical instructions (`42_logical.md`). All but CMA write all five flags, by the note of R160. -/

namespace Sys2Proof.Machine

/-- ANA r (R161). -/
def execAnaR (src : Reg8) (s : State) : Host.Outcome State Fault Refusal :=
  .next ((andToA (s.regOperand src)).advance 1)

/-- ANA M (R162). -/
def execAnaM (s : State) : Host.Outcome State Fault Refusal :=
  .next ((andToA s.memOperand).advance 1)

/-- ANI byte (R163). -/
def execAni (imm : Byte) (s : State) : Host.Outcome State Fault Refusal :=
  .next ((andToA (s.immOperand imm)).advance 2)

/-- XRA r (R164). -/
def execXraR (src : Reg8) (s : State) : Host.Outcome State Fault Refusal :=
  .next ((xorToA (s.regOperand src)).advance 1)

/-- XRA M (R165). -/
def execXraM (s : State) : Host.Outcome State Fault Refusal :=
  .next ((xorToA s.memOperand).advance 1)

/-- XRI byte (R166). -/
def execXri (imm : Byte) (s : State) : Host.Outcome State Fault Refusal :=
  .next ((xorToA (s.immOperand imm)).advance 2)

/-- ORA r (R167). -/
def execOraR (src : Reg8) (s : State) : Host.Outcome State Fault Refusal :=
  .next ((orToA (s.regOperand src)).advance 1)

/-- ORA M (R168). -/
def execOraM (s : State) : Host.Outcome State Fault Refusal :=
  .next ((orToA s.memOperand).advance 1)

/-- ORI byte (R169). -/
def execOri (imm : Byte) (s : State) : Host.Outcome State Fault Refusal :=
  .next ((orToA (s.immOperand imm)).advance 2)

/-- CMA (R170): no flag is written. -/
def execCma (s : State) : Host.Outcome State Fault Refusal :=
  .next ((s.setA (~~~s.regs.a)).advance 1)

end Sys2Proof.Machine
end

