-- ==== Sys2Proof/Machine/Rotate.lean ====
section
/-! DEFINITION. Rotate and carry-flag instructions (`43_rotate_flags.md`). CY is the only flag written (R175). -/

namespace Sys2Proof.Machine

/-- A and CY are replaced, and PC moves on; Z, S, P and AC keep their values (R175). -/
def rotated (s : State) (a : Byte) (cy : Bool) : State :=
  ((s.setA a).setFlags { s.flags with cy := cy }).advance 1

/-- RLC (R176): `t = A[7]; A <- A[6:0] ‖ t; CY <- t`. -/
def execRlc (s : State) : Host.Outcome State Fault Refusal :=
  .next (rotated s (s.regs.a.extractLsb' 0 7 ++ BitVec.ofBool (s.regs.a.getLsbD 7)) (s.regs.a.getLsbD 7))

/-- RRC (R177): `t = A[0]; A <- t ‖ A[7:1]; CY <- t`. -/
def execRrc (s : State) : Host.Outcome State Fault Refusal :=
  .next (rotated s (BitVec.ofBool (s.regs.a.getLsbD 0) ++ s.regs.a.extractLsb' 1 7) (s.regs.a.getLsbD 0))

/-- RAL (R178): `t = A[7]; A <- A[6:0] ‖ CY; CY <- t`. -/
def execRal (s : State) : Host.Outcome State Fault Refusal :=
  .next (rotated s (s.regs.a.extractLsb' 0 7 ++ BitVec.ofBool s.flags.cy) (s.regs.a.getLsbD 7))

/-- RAR (R179): `t = A[0]; A <- CY ‖ A[7:1]; CY <- t`. -/
def execRar (s : State) : Host.Outcome State Fault Refusal :=
  .next (rotated s (BitVec.ofBool s.flags.cy ++ s.regs.a.extractLsb' 1 7) (s.regs.a.getLsbD 0))

/-- CMC (R180). -/
def execCmc (s : State) : Host.Outcome State Fault Refusal :=
  .next ((s.setFlags { s.flags with cy := !s.flags.cy }).advance 1)

/-- STC (R181). -/
def execStc (s : State) : Host.Outcome State Fault Refusal :=
  .next ((s.setFlags { s.flags with cy := true }).advance 1)

end Sys2Proof.Machine
end

