-- ==== Sys2Proof/Machine/Stack.lean ====
section
/-! DEFINITION. Stack instructions (`45_stack.md`). The stack is ordinary memory addressed by SP (R200). -/

namespace Sys2Proof.Machine

/-- PUSH rp (R201). The decoder gives only B, D and H. -/
def execPushRp (rp : RegPair) (s : State) : Host.Outcome State Fault Refusal :=
  .next ((s.push16 (s.pair rp)).advance 1)

/-- PUSH PSW (R202): A to SP - 1, then RF to SP - 2; bits 5, 3 and 1 of RF are free (R32). -/
def execPushPsw (s : State) : Host.Outcome State Fault Refusal :=
  let w := s.write8 (s.sp - 1) s.regs.a
  let f := w.draw8
  let t := f.2.write8 (s.sp - 2) (flagByte s.flags f.1)
  .next ({ t with sp := s.sp - 2 }.advance 1)

/-- POP rp (R203). The decoder gives only B, D and H. -/
def execPopRp (rp : RegPair) (s : State) : Host.Outcome State Fault Refusal :=
  let r := s.pop16
  .next ((r.2.setPair rp r.1).advance 1)

/-- POP PSW (R204): the flags from SP, A from SP + 1. -/
def execPopPsw (s : State) : Host.Outcome State Fault Refusal :=
  let r := s.pop16
  .next (((r.2.setFlags (flagsOfByte (loByte r.1))).setA (hiByte r.1)).advance 1)

/-- XTHL (R205): reads SP and SP + 1, then writes old H at SP + 1 and old L at SP. -/
def execXthl (s : State) : Host.Outcome State Fault Refusal :=
  let r := s.read16 s.sp
  .next ((((r.2.write8 (s.sp + 1) s.regs.h).write8 s.sp s.regs.l).setPair .h r.1).advance 1)

/-- SPHL (R206). -/
def execSphl (s : State) : Host.Outcome State Fault Refusal :=
  .next ((s.setPair .sp s.hl).advance 1)

end Sys2Proof.Machine
end

