-- ==== Sys2Proof/Machine/Transfer.lean ====
section
/-! DEFINITION. Data transfer instructions (`40_transfer.md`). None writes a flag (R110). -/

namespace Sys2Proof.Machine

/-- MOV r1,r2 (R111). -/
def execMovRR (dst src : Reg8) (s : State) : Host.Outcome State Fault Refusal :=
  .next ((s.setReg dst (s.reg src)).advance 1)

/-- MOV r,M (R112): the address is taken before H or L is replaced. -/
def execMovRM (dst : Reg8) (s : State) : Host.Outcome State Fault Refusal :=
  let o := s.memOperand
  .next ((o.2.setReg dst o.1).advance 1)

/-- MOV M,r (R113). -/
def execMovMR (src : Reg8) (s : State) : Host.Outcome State Fault Refusal :=
  .next ((s.write8 s.hl (s.reg src)).advance 1)

/-- MVI r,byte (R114). -/
def execMviR (dst : Reg8) (imm : Byte) (s : State) : Host.Outcome State Fault Refusal :=
  .next ((s.setReg dst imm).advance 2)

/-- MVI M,byte (R115). -/
def execMviM (imm : Byte) (s : State) : Host.Outcome State Fault Refusal :=
  .next ((s.write8 s.hl imm).advance 2)

/-- LXI rp,dobreB (R116). -/
def execLxi (rp : RegPair) (imm : Word) (s : State) : Host.Outcome State Fault Refusal :=
  .next ((s.setPair rp imm).advance 3)

/-- LDA dir (R117). -/
def execLda (dir : Word) (s : State) : Host.Outcome State Fault Refusal :=
  let r := s.read8 dir
  .next ((r.2.setA r.1).advance 3)

/-- STA dir (R118). -/
def execSta (dir : Word) (s : State) : Host.Outcome State Fault Refusal :=
  .next ((s.write8 dir s.regs.a).advance 3)

/-- LHLD dir (R119): L from `dir`, then H from `dir + 1`. -/
def execLhld (dir : Word) (s : State) : Host.Outcome State Fault Refusal :=
  let r := s.read16 dir
  .next ((r.2.setPair .h r.1).advance 3)

/-- SHLD dir (R120): L to `dir`, then H to `dir + 1`. -/
def execShld (dir : Word) (s : State) : Host.Outcome State Fault Refusal :=
  .next ((s.write16 dir s.hl).advance 3)

/-- LDAX rp (R121). The decoder gives only B and D. -/
def execLdax (rp : RegPair) (s : State) : Host.Outcome State Fault Refusal :=
  let r := s.read8 (s.pair rp)
  .next ((r.2.setA r.1).advance 1)

/-- STAX rp (R122). The decoder gives only B and D. -/
def execStax (rp : RegPair) (s : State) : Host.Outcome State Fault Refusal :=
  .next ((s.write8 (s.pair rp) s.regs.a).advance 1)

/-- XCHG (R123): all four reads before the writes. -/
def execXchg (s : State) : Host.Outcome State Fault Refusal :=
  .next (((s.setPair .h (s.pair .d)).setPair .d (s.pair .h)).advance 1)

end Sys2Proof.Machine
end

