-- ==== Sys2Proof/Machine/Dispatch.lean ====
section
/-! DEFINITION. The meaning of every instruction: one arm for each row of `spec/opcode_table.json`. -/

namespace Sys2Proof.Machine

def exec (i : Instr) (s : State) : Host.Outcome State Fault Refusal :=
  match i with
  | .movRR dst src => Sys2Proof.Machine.execMovRR dst src s
  | .movRM dst => Sys2Proof.Machine.execMovRM dst s
  | .movMR src => Sys2Proof.Machine.execMovMR src s
  | .mviR dst imm => Sys2Proof.Machine.execMviR dst imm s
  | .mviM imm => Sys2Proof.Machine.execMviM imm s
  | .lxi rp imm => Sys2Proof.Machine.execLxi rp imm s
  | .lda dir => Sys2Proof.Machine.execLda dir s
  | .sta dir => Sys2Proof.Machine.execSta dir s
  | .lhld dir => Sys2Proof.Machine.execLhld dir s
  | .shld dir => Sys2Proof.Machine.execShld dir s
  | .ldax rp => Sys2Proof.Machine.execLdax rp s
  | .stax rp => Sys2Proof.Machine.execStax rp s
  | .xchg => Sys2Proof.Machine.execXchg s
  | .addR src => Sys2Proof.Machine.execAddR src s
  | .addM => Sys2Proof.Machine.execAddM s
  | .adi imm => Sys2Proof.Machine.execAdi imm s
  | .adcR src => Sys2Proof.Machine.execAdcR src s
  | .adcM => Sys2Proof.Machine.execAdcM s
  | .aci imm => Sys2Proof.Machine.execAci imm s
  | .subR src => Sys2Proof.Machine.execSubR src s
  | .subM => Sys2Proof.Machine.execSubM s
  | .sui imm => Sys2Proof.Machine.execSui imm s
  | .sbbR src => Sys2Proof.Machine.execSbbR src s
  | .sbbM => Sys2Proof.Machine.execSbbM s
  | .sbi imm => Sys2Proof.Machine.execSbi imm s
  | .inrR reg => Sys2Proof.Machine.execInrR reg s
  | .inrM => Sys2Proof.Machine.execInrM s
  | .dcrR reg => Sys2Proof.Machine.execDcrR reg s
  | .dcrM => Sys2Proof.Machine.execDcrM s
  | .inx rp => Sys2Proof.Machine.execInx rp s
  | .dcx rp => Sys2Proof.Machine.execDcx rp s
  | .dad rp => Sys2Proof.Machine.execDad rp s
  | .daa => Sys2Proof.Machine.execDaa s
  | .cmpR src => Sys2Proof.Machine.execCmpR src s
  | .cmpM => Sys2Proof.Machine.execCmpM s
  | .cpi imm => Sys2Proof.Machine.execCpi imm s
  | .anaR src => Sys2Proof.Machine.execAnaR src s
  | .anaM => Sys2Proof.Machine.execAnaM s
  | .ani imm => Sys2Proof.Machine.execAni imm s
  | .xraR src => Sys2Proof.Machine.execXraR src s
  | .xraM => Sys2Proof.Machine.execXraM s
  | .xri imm => Sys2Proof.Machine.execXri imm s
  | .oraR src => Sys2Proof.Machine.execOraR src s
  | .oraM => Sys2Proof.Machine.execOraM s
  | .ori imm => Sys2Proof.Machine.execOri imm s
  | .cma => Sys2Proof.Machine.execCma s
  | .rlc => Sys2Proof.Machine.execRlc s
  | .rrc => Sys2Proof.Machine.execRrc s
  | .ral => Sys2Proof.Machine.execRal s
  | .rar => Sys2Proof.Machine.execRar s
  | .cmc => Sys2Proof.Machine.execCmc s
  | .stc => Sys2Proof.Machine.execStc s
  | .jmp dir => Sys2Proof.Machine.execJmp dir s
  | .jccc cc dir => Sys2Proof.Machine.execJccc cc dir s
  | .call dir => Sys2Proof.Machine.execCall dir s
  | .cccc cc dir => Sys2Proof.Machine.execCccc cc dir s
  | .ret => Sys2Proof.Machine.execRet s
  | .rccc cc => Sys2Proof.Machine.execRccc cc s
  | .rst n => Sys2Proof.Machine.execRst n s
  | .pchl => Sys2Proof.Machine.execPchl s
  | .pushRp rp => Sys2Proof.Machine.execPushRp rp s
  | .pushPsw => Sys2Proof.Machine.execPushPsw s
  | .popRp rp => Sys2Proof.Machine.execPopRp rp s
  | .popPsw => Sys2Proof.Machine.execPopPsw s
  | .xthl => Sys2Proof.Machine.execXthl s
  | .sphl => Sys2Proof.Machine.execSphl s
  | .inPort port => Sys2Proof.Machine.execInPort port s
  | .outPort port => Sys2Proof.Machine.execOutPort port s
  | .ei => Sys2Proof.Machine.execEi s
  | .di => Sys2Proof.Machine.execDi s
  | .hlt => Sys2Proof.Machine.execHlt s
  | .nop => Sys2Proof.Machine.execNop s
  | .rim => Sys2Proof.Machine.execRim s
  | .sim => Sys2Proof.Machine.execSim s

end Sys2Proof.Machine
end

