-- ==== Sys2Proof/WellFormed.lean ====
section
/-! DEFINITION. Which terms of `Instr` are instructions: the restrictions of `30_encoding.md` R85 and R89 that the
types do not already express. Code 110 of an `r` operand cannot be written (`Reg8` has seven registers). -/

namespace Sys2Proof

/-- LDAX and STAX take only the pairs B and D: "Non con HL", and SP is excluded too (R89 item 3). -/
def RegPair.isIndex : RegPair → Bool
  | .b | .d => true
  | .h | .sp => false

/-- PUSH rp and POP rp take only B, D and H: code 11 is the PSW rows (R89 item 4). -/
def RegPair.isPushable : RegPair → Bool
  | .b | .d | .h => true
  | .sp => false

/-- The instruction's operands are ones its row of R88 allows. -/
def Instr.wellFormed : Instr → Bool
  | .ldax rp | .stax rp => rp.isIndex
  | .pushRp rp | .popRp rp => rp.isPushable
  | _ => true

end Sys2Proof
end

