-- ==== Sys2Proof/Decode.lean ====
section
/-! DEFINITION. Decoding and encoding (`30_encoding.md`). The opcode byte alone decides the instruction and its
length (R80); the decoder is the 74-row table of R88, the encoder is written from the same patterns. -/

namespace Sys2Proof

/-- The 3-bit field at bits 5:3: DDD, CCC or NNN (R82). -/
def fieldMid (op : Byte) : BitVec 3 := op.extractLsb' 3 3

/-- The 3-bit field at bits 2:0: FFF (R82). -/
def fieldLow (op : Byte) : BitVec 3 := op.extractLsb' 0 3

/-- The 2-bit field at bits 5:4: PP (R82). -/
def fieldPair (op : Byte) : BitVec 2 := op.extractLsb' 4 2

/-- The register a 3-bit code names; 110 is M and names none (R83). -/
def regOfCode (c : BitVec 3) : Option Reg8 :=
  match c.toNat with
  | 0 => some .b
  | 1 => some .c
  | 2 => some .d
  | 3 => some .e
  | 4 => some .h
  | 5 => some .l
  | 7 => some .a
  | _ => none

/-- The pair or SP a 2-bit code names (R85, first line). -/
def pairOfCode (c : BitVec 2) : RegPair :=
  match c.toNat with
  | 0 => .b
  | 1 => .d
  | 2 => .h
  | _ => .sp

/-- The pair a code names in LDAX and STAX: B or D (R85, third line). -/
def indexPairOfCode (c : BitVec 2) : Option RegPair :=
  if (pairOfCode c).isIndex then some (pairOfCode c) else none

/-- The pair a code names in PUSH and POP: B, D or H (R85, second line). -/
def pushPairOfCode (c : BitVec 2) : Option RegPair :=
  if (pairOfCode c).isPushable then some (pairOfCode c) else none

/-- The condition a 3-bit value names (R86). -/
def condOfCode (c : BitVec 3) : Cond :=
  match c.toNat with
  | 0 => .nz
  | 1 => .z
  | 2 => .nc
  | 3 => .c
  | 4 => .po
  | 5 => .pe
  | 6 => .p
  | _ => .m

/-- What an opcode byte selects: an instruction, still without its operand bytes where its format has them (R81). -/
inductive Selected where
  | b1 (i : Instr)
  | b2 (operand : Byte → Instr)
  | b3 (operand : Word → Instr)

/-- The instruction length of a format (R81). -/
def Selected.length : Selected → Nat
  | .b1 _ => 1
  | .b2 _ => 2
  | .b3 _ => 3

/-- A row of R88: a byte `b` selects it when `b AND mask = pattern` and no field holds a value that the row's
restriction excludes (`build` then answers none). -/
structure OpcodeRow where
  mask    : Byte
  pattern : Byte
  build   : Byte → Option Selected

/-- What the row makes of an opcode byte: none where the byte does not select the row. -/
def OpcodeRow.select (r : OpcodeRow) (op : Byte) : Option Selected :=
  if op &&& r.mask = r.pattern then r.build op else none

/-- A row whose opcode byte holds no field. -/
def fixedRow (pattern : Byte) (sel : Selected) : OpcodeRow := ⟨0xFF, pattern, fun _ => some sel⟩

/-- A row with a register at bits 2:0, not 110 (FFF). -/
def lowRegRow (pattern : Byte) (f : Reg8 → Instr) : OpcodeRow :=
  ⟨0xF8, pattern, fun op => (regOfCode (fieldLow op)).map fun r => .b1 (f r)⟩

/-- A row with a register at bits 5:3, not 110 (DDD). -/
def midRegRow (pattern : Byte) (f : Reg8 → Selected) : OpcodeRow :=
  ⟨0xC7, pattern, fun op => (regOfCode (fieldMid op)).map f⟩

/-- A row with a pair or SP at bits 5:4 (PP, no restriction). -/
def pairRow (pattern : Byte) (f : RegPair → Selected) : OpcodeRow :=
  ⟨0xCF, pattern, fun op => some (f (pairOfCode (fieldPair op)))⟩

/-- A row with a condition at bits 5:3 (CCC). -/
def condRow (pattern : Byte) (f : Cond → Selected) : OpcodeRow :=
  ⟨0xC7, pattern, fun op => some (f (condOfCode (fieldMid op)))⟩

/-- Rows 1 to 13 of R88: data transfer. -/
def transferRows : List OpcodeRow :=
  [ ⟨0xC0, 0x40, fun op =>
      match regOfCode (fieldMid op), regOfCode (fieldLow op) with
      | some dst, some src => some (.b1 (.movRR dst src))
      | _, _ => none⟩,
    midRegRow 0x46 (fun reg => .b1 (.movRM reg)),
    lowRegRow 0x70 .movMR,
    midRegRow 0x06 (fun reg => .b2 (.mviR reg)),
    fixedRow 0x36 (.b2 .mviM),
    pairRow 0x01 (fun rp => .b3 (.lxi rp)),
    fixedRow 0x3A (.b3 .lda),
    fixedRow 0x32 (.b3 .sta),
    fixedRow 0x2A (.b3 .lhld),
    fixedRow 0x22 (.b3 .shld),
    ⟨0xCF, 0x0A, fun op => (indexPairOfCode (fieldPair op)).map fun rp => .b1 (.ldax rp)⟩,
    ⟨0xCF, 0x02, fun op => (indexPairOfCode (fieldPair op)).map fun rp => .b1 (.stax rp)⟩,
    fixedRow 0xEB (.b1 .xchg) ]

/-- Rows 14 to 36 of R88: arithmetic. -/
def arithmeticRows : List OpcodeRow :=
  [ lowRegRow 0x80 .addR,
    fixedRow 0x86 (.b1 .addM),
    fixedRow 0xC6 (.b2 .adi),
    lowRegRow 0x88 .adcR,
    fixedRow 0x8E (.b1 .adcM),
    fixedRow 0xCE (.b2 .aci),
    lowRegRow 0x90 .subR,
    fixedRow 0x96 (.b1 .subM),
    fixedRow 0xD6 (.b2 .sui),
    lowRegRow 0x98 .sbbR,
    fixedRow 0x9E (.b1 .sbbM),
    fixedRow 0xDE (.b2 .sbi),
    midRegRow 0x04 (fun reg => .b1 (.inrR reg)),
    fixedRow 0x34 (.b1 .inrM),
    midRegRow 0x05 (fun reg => .b1 (.dcrR reg)),
    fixedRow 0x35 (.b1 .dcrM),
    pairRow 0x03 (fun rp => .b1 (.inx rp)),
    pairRow 0x0B (fun rp => .b1 (.dcx rp)),
    pairRow 0x09 (fun rp => .b1 (.dad rp)),
    fixedRow 0x27 (.b1 .daa),
    lowRegRow 0xB8 .cmpR,
    fixedRow 0xBE (.b1 .cmpM),
    fixedRow 0xFE (.b2 .cpi) ]

/-- Rows 37 to 52 of R88: logical, rotate and carry flag. -/
def logicalRows : List OpcodeRow :=
  [ lowRegRow 0xA0 .anaR,
    fixedRow 0xA6 (.b1 .anaM),
    fixedRow 0xE6 (.b2 .ani),
    lowRegRow 0xA8 .xraR,
    fixedRow 0xAE (.b1 .xraM),
    fixedRow 0xEE (.b2 .xri),
    lowRegRow 0xB0 .oraR,
    fixedRow 0xB6 (.b1 .oraM),
    fixedRow 0xF6 (.b2 .ori),
    fixedRow 0x2F (.b1 .cma),
    fixedRow 0x07 (.b1 .rlc),
    fixedRow 0x0F (.b1 .rrc),
    fixedRow 0x17 (.b1 .ral),
    fixedRow 0x1F (.b1 .rar),
    fixedRow 0x3F (.b1 .cmc),
    fixedRow 0x37 (.b1 .stc) ]

/-- Rows 53 to 60 of R88: jump, call, return, restart. -/
def branchRows : List OpcodeRow :=
  [ fixedRow 0xC3 (.b3 .jmp),
    condRow 0xC2 (fun cc => .b3 (.jccc cc)),
    fixedRow 0xCD (.b3 .call),
    condRow 0xC4 (fun cc => .b3 (.cccc cc)),
    fixedRow 0xC9 (.b1 .ret),
    condRow 0xC0 (fun cc => .b1 (.rccc cc)),
    ⟨0xC7, 0xC7, fun op => some (.b1 (.rst (fieldMid op)))⟩,
    fixedRow 0xE9 (.b1 .pchl) ]

/-- Rows 61 to 74 of R88: stack, input and output, processor control. -/
def systemRows : List OpcodeRow :=
  [ ⟨0xCF, 0xC5, fun op => (pushPairOfCode (fieldPair op)).map fun rp => .b1 (.pushRp rp)⟩,
    fixedRow 0xF5 (.b1 .pushPsw),
    ⟨0xCF, 0xC1, fun op => (pushPairOfCode (fieldPair op)).map fun rp => .b1 (.popRp rp)⟩,
    fixedRow 0xF1 (.b1 .popPsw),
    fixedRow 0xE3 (.b1 .xthl),
    fixedRow 0xF9 (.b1 .sphl),
    fixedRow 0xDB (.b2 .inPort),
    fixedRow 0xD3 (.b2 .outPort),
    fixedRow 0xFB (.b1 .ei),
    fixedRow 0xF3 (.b1 .di),
    fixedRow 0x76 (.b1 .hlt),
    fixedRow 0x00 (.b1 .nop),
    fixedRow 0x20 (.b1 .rim),
    fixedRow 0x30 (.b1 .sim) ]

/-- The 74 rows of R88, in the card's order. No byte selects two of them (R90), so the order decides nothing. -/
def opcodeRows : List OpcodeRow :=
  transferRows ++ arithmeticRows ++ logicalRows ++ branchRows ++ systemRows

/-- What an opcode byte selects; none for the ten bytes of R91. -/
def decodeOpcode (op : Byte) : Option Selected := opcodeRows.findSome? (·.select op)

/-- The length of the instruction an opcode byte begins, as R93 lists it; none for the ten bytes of R91. -/
def opcodeLength (op : Byte) : Option Nat :=
  if op ∈ [0x08, 0x10, 0x18, 0x28, 0x38, 0xCB, 0xD9, 0xDD, 0xED, 0xFD] then none
  else if op ∈ [0x01, 0x11, 0x21, 0x31, 0x22, 0x2A, 0x32, 0x3A, 0xC3, 0xCD] then some 3
  else if op &&& 0xC7 = 0xC2 then some 3
  else if op &&& 0xC7 = 0xC4 then some 3
  else if op &&& 0xC7 = 0x06 then some 2
  else if op &&& 0xC7 = 0xC6 then some 2
  else if op ∈ [0xD3, 0xDB] then some 2
  else some 1

/-- Why a list of bytes does not begin with an instruction. -/
inductive DecodeError where
  /-- No byte at all. -/
  | noBytes
  /-- The first byte is one of the ten that no row selects (R91). -/
  | illegalOpcode (op : Byte)
  /-- The list ends inside the instruction that its first byte begins. -/
  | missingOperand (op : Byte)
deriving DecidableEq, Repr

/-- The instruction at the head of a list of bytes and the bytes after it; operands low byte first (R84). -/
def decode : List Byte → Except DecodeError (Instr × List Byte)
  | [] => .error .noBytes
  | op :: rest =>
    match decodeOpcode op, rest with
    | none, _ => .error (.illegalOpcode op)
    | some (.b1 i), _ => .ok (i, rest)
    | some (.b2 f), imm :: rest' => .ok (f imm, rest')
    | some (.b3 f), lo :: hi :: rest' => .ok (f (Machine.joinBytes hi lo), rest')
    | some _, _ => .error (.missingOperand op)

/-- The decoder's answer for an instruction given as a number, bit 0 the least significant bit of its first byte:
the bits from `nbits` up are 0. -/
def decodeTableWord (nbits w : Nat) : Option Instr :=
  let v := w % 2 ^ nbits
  match decode [BitVec.ofNat 8 v, BitVec.ofNat 8 (v / 256), BitVec.ofNat 8 (v / 65536)] with
  | .ok (i, _) => some i
  | .error _ => none

/-- The 3-bit code of a register (R83). -/
def Reg8.code : Reg8 → BitVec 3
  | .b => 0b000
  | .c => 0b001
  | .d => 0b010
  | .e => 0b011
  | .h => 0b100
  | .l => 0b101
  | .a => 0b111

/-- The 2-bit code of a pair or SP (R85). -/
def RegPair.code : RegPair → BitVec 2
  | .b => 0b00
  | .d => 0b01
  | .h => 0b10
  | .sp => 0b11

/-- The 3-bit value of a condition (R86). -/
def Cond.code : Cond → BitVec 3
  | .nz => 0b000
  | .z => 0b001
  | .nc => 0b010
  | .c => 0b011
  | .po => 0b100
  | .pe => 0b101
  | .p => 0b110
  | .m => 0b111

/-- The opcode byte `top ‖ mid ‖ low` of the formats of R81. -/
def packOpcode (top : BitVec 2) (mid low : BitVec 3) : Byte := top ++ mid ++ low

/-- The opcode byte `top ‖ PP ‖ low` of the pair formats of R81. -/
def packPairOpcode (top pp : BitVec 2) (low : BitVec 4) : Byte := top ++ pp ++ low

/-- An opcode byte and a 16-bit operand, low byte first (R84). -/
def withWord (op : Byte) (v : Word) : List Byte := [op, Machine.loByte v, Machine.hiByte v]

/-- The bytes of an instruction, from the pattern column of R88. -/
def encode : Instr → List Byte
  | .movRR dst src => [packOpcode 0b01 dst.code src.code]
  | .movRM dst => [packOpcode 0b01 dst.code 0b110]
  | .movMR src => [packOpcode 0b01 0b110 src.code]
  | .mviR dst v => [packOpcode 0b00 dst.code 0b110, v]
  | .mviM v => [0x36, v]
  | .lxi rp v => withWord (packPairOpcode 0b00 rp.code 0b0001) v
  | .lda v => withWord 0x3A v
  | .sta v => withWord 0x32 v
  | .lhld v => withWord 0x2A v
  | .shld v => withWord 0x22 v
  | .ldax rp => [packPairOpcode 0b00 rp.code 0b1010]
  | .stax rp => [packPairOpcode 0b00 rp.code 0b0010]
  | .xchg => [0xEB]
  | .addR src => [packOpcode 0b10 0b000 src.code]
  | .addM => [0x86]
  | .adi v => [0xC6, v]
  | .adcR src => [packOpcode 0b10 0b001 src.code]
  | .adcM => [0x8E]
  | .aci v => [0xCE, v]
  | .subR src => [packOpcode 0b10 0b010 src.code]
  | .subM => [0x96]
  | .sui v => [0xD6, v]
  | .sbbR src => [packOpcode 0b10 0b011 src.code]
  | .sbbM => [0x9E]
  | .sbi v => [0xDE, v]
  | .inrR dst => [packOpcode 0b00 dst.code 0b100]
  | .inrM => [0x34]
  | .dcrR dst => [packOpcode 0b00 dst.code 0b101]
  | .dcrM => [0x35]
  | .inx rp => [packPairOpcode 0b00 rp.code 0b0011]
  | .dcx rp => [packPairOpcode 0b00 rp.code 0b1011]
  | .dad rp => [packPairOpcode 0b00 rp.code 0b1001]
  | .daa => [0x27]
  | .cmpR src => [packOpcode 0b10 0b111 src.code]
  | .cmpM => [0xBE]
  | .cpi v => [0xFE, v]
  | .anaR src => [packOpcode 0b10 0b100 src.code]
  | .anaM => [0xA6]
  | .ani v => [0xE6, v]
  | .xraR src => [packOpcode 0b10 0b101 src.code]
  | .xraM => [0xAE]
  | .xri v => [0xEE, v]
  | .oraR src => [packOpcode 0b10 0b110 src.code]
  | .oraM => [0xB6]
  | .ori v => [0xF6, v]
  | .cma => [0x2F]
  | .rlc => [0x07]
  | .rrc => [0x0F]
  | .ral => [0x17]
  | .rar => [0x1F]
  | .cmc => [0x3F]
  | .stc => [0x37]
  | .jmp v => withWord 0xC3 v
  | .jccc cc v => withWord (packOpcode 0b11 cc.code 0b010) v
  | .call v => withWord 0xCD v
  | .cccc cc v => withWord (packOpcode 0b11 cc.code 0b100) v
  | .ret => [0xC9]
  | .rccc cc => [packOpcode 0b11 cc.code 0b000]
  | .rst n => [packOpcode 0b11 n 0b111]
  | .pchl => [0xE9]
  | .pushRp rp => [packPairOpcode 0b11 rp.code 0b0101]
  | .pushPsw => [0xF5]
  | .popRp rp => [packPairOpcode 0b11 rp.code 0b0001]
  | .popPsw => [0xF1]
  | .xthl => [0xE3]
  | .sphl => [0xF9]
  | .inPort v => [0xDB, v]
  | .outPort v => [0xD3, v]
  | .ei => [0xFB]
  | .di => [0xF3]
  | .hlt => [0x76]
  | .nop => [0x00]
  | .rim => [0x20]
  | .sim => [0x30]

end Sys2Proof
end

