-- ==== Sys2Proof/Machine/Fetch.lean ====
section
/-! DEFINITION. Fetching an instruction's bytes (`20_memory.md` R51, `30_encoding.md` R80), and placing an instruction
where the fetch will find it. -/

namespace Sys2Proof.Machine

/-- The instruction at PC and the state after its bytes were read: the opcode at `pc`, then the operand bytes at
`pc + 1` and `pc + 2`, modulo 2^16 (R51, R52, R93). One of the ten unassigned bytes is refused with PC still pointing
at it (R91, R231). PC is not advanced here.
DESIGN CHOICE (log 20): all bytes of the instruction are read, those of a Jccc or a Cccc that is then not taken too;
R187 leaves open whether the hardware reads the second operand byte there. -/
def fetch (s : State) : Except Refusal (Instr × State) :=
  let op := s.read8 s.pc
  match decodeOpcode op.1 with
  | none => .error (.illegalOpcode op.1 s.pc)
  | some (.b1 i) => .ok (i, op.2)
  | some (.b2 f) =>
    let imm := op.2.read8 (s.pc + 1)
    .ok (f imm.1, imm.2)
  | some (.b3 f) =>
    let w := op.2.read16 (s.pc + 1)
    .ok (f w.1, w.2)

/-- A byte is placed at an address, as a loader outside the machine would place it: the cell gets the value, and an
address whose reads `MemMap` does not send to a cell becomes RAM (log 15). -/
def State.plant (s : State) (a : Word) (v : Byte) : State :=
  let p : Params :=
    match s.kindAt a with
    | .ram | .rom => s.params
    | .unmapped | .device => { s.params with memMap := ⟨a, 1, .ram⟩ :: s.params.memMap }
  { s with mem := s.mem.set a.toNat v, params := p }

/-- The next boundary takes no interrupt and no reset, and the machine is not halted, so that it fetches: an idle
sample stands before those to come, and a latched RST 7.5 that would be taken is held off for one boundary. A state
whose next boundary fetches in any case is unchanged. -/
def State.openForFetch (s : State) : State :=
  { s with
    pinsAhead := if s.pinsAhead = [] then [] else Pins.idle :: s.pinsAhead
    ctl := { s.ctl with
      halted := false
      eiDelay := s.ctl.eiDelay || (s.ctl.inte && s.ctl.r75 && !s.ctl.m75) } }

/-- The three bytes of an instruction given as a number, placed at PC. -/
def State.plantWord (s : State) (nbits w : Nat) : State :=
  let v := w % 2 ^ nbits
  ((s.plant s.pc (BitVec.ofNat 8 v)).plant (s.pc + 1) (BitVec.ofNat 8 (v / 256))).plant (s.pc + 2)
    (BitVec.ofNat 8 (v / 65536))

end Sys2Proof.Machine
end

