-- ==== Sys2Proof/Machine/Interrupt.lean ====
section
/-! DEFINITION. The instruction boundary: sampling the environment, recognising an interrupt and entering it
(`60_exceptions.md` R233 to R246), and the reset input (`70_reset_and_hazards.md` R260 to R262). -/

namespace Sys2Proof.Machine

/-- The five interrupt sources (R233). -/
inductive Source where
  | trap | rst75 | rst65 | rst55 | intr
deriving DecidableEq, Repr

/-- Steps 1 and 2 of R238: the environment's next sample is taken, an edge on RST 7.5 sets its latch whatever the
masks are (R241), and `ei_delay` is used up. -/
def State.atBoundary (s : State) : State :=
  let p := s.pinsAhead.headD Pins.idle
  { s with
    pins := p
    pinsAhead := s.pinsAhead.tail
    ctl := { s.ctl with r75 := s.ctl.r75 || p.rst75edge, eiDelay := false } }

/-- Step 3 of R238: the request that is taken, if any. `blocked` is `ei_delay` as it was before the boundary. -/
def chooseRequest (p : Pins) (c : Control) (blocked : Bool) : Option Source :=
  if p.trap then some .trap
  else if blocked || !c.inte then none
  else if c.r75 && !c.m75 then some .rst75
  else if p.rst65 && !c.m65 then some .rst65
  else if p.rst55 && !c.m55 then some .rst55
  else if p.intr then some .intr
  else none

/-- Where an INTR acknowledge leads: the supplied bytes are exactly one RST n or one CALL dir, and anything else has no
target (R240, U13, log 12). -/
def intrTarget (bytes : List Byte) : Option Word :=
  match decode bytes with
  | .ok (.rst n, []) => some (restartAddress n)
  | .ok (.call dir, []) => some dir
  | _ => none

/-- TRAP entry keeps INTE from before it for the next RIM (R239). -/
def State.saveTrapIe (s : State) : State :=
  { s with ctl := { s.ctl with trapIe := s.ctl.inte, trapPendingRim := true } }

/-- The latch R7_5 is cleared when its interrupt is taken (R241). -/
def State.clearR75 (s : State) : State := { s with ctl := { s.ctl with r75 := false } }

/-- Steps 5 and 6 of R238: entry at the source's vector (R233), or at the target the INTR device supplies (R240). -/
def takeInterrupt (k : Source) (s : State) : Host.Outcome State Fault Refusal :=
  match k with
  | .trap => .next (s.saveTrapIe.enterInterrupt 0x0024)
  | .rst75 => .next (s.clearR75.enterInterrupt 0x003C)
  | .rst65 => .next (s.enterInterrupt 0x0034)
  | .rst55 => .next (s.enterInterrupt 0x002C)
  | .intr =>
    match intrTarget s.pins.intrInsn with
    | some target => .next (s.enterInterrupt target)
    | none => .refused (.intrInstruction s.pins.intrInsn)

/-- The control state after reset, the same from every state (R41, R261). -/
def resetControl : Control := ⟨false, true, true, true, false, false, false, false, false, false⟩

/-- The state that the reset input forces: what R261 gives a value gets it; registers, SP and flags become free values
and RAM holds no value, since reset leaves them unspecified (R262); ROM keeps its content (log 13). -/
def State.forceReset (s : State) : State :=
  let v : Nat → Byte := fun i => Config.freeByte (s.draws + i)
  { s with
    regs := ⟨v 0, v 1, v 2, v 3, v 4, v 5, v 6⟩
    sp := joinBytes (v 7) (v 8)
    flags := flagsOfByte (v 9)
    draws := s.draws + 10
    pc := 0
    ctl := resetControl
    mem := s.mem.filter fun cell => kindIn s.params.memMap (BitVec.ofNat 16 cell.1) == .rom }

/-- The reset input at a boundary (R260): reset clears SOD (R36), and if SOD was 1 that change is an observable event
(R221). -/
def State.onReset (s : State) : State := s.forceReset.recordSod s.ctl.sod

end Sys2Proof.Machine
end

