-- ==== Sys2Proof/Machine/Step.lean ====
section
/-! DEFINITION. One step: one instruction boundary (`60_exceptions.md` R238) and what it leads to. -/

namespace Sys2Proof.Machine

/-- The instruction at PC is fetched and executed (R238 step 4). -/
def runInstruction (s : State) : Host.Outcome State Fault Refusal :=
  match fetch s with
  | .error r => .refused r
  | .ok (i, t) => exec i t

/-- One boundary (R238). The environment is sampled; then the reset input, if asserted, resets the machine (R260); or
the request chosen is entered; or, with none, a halted machine stays halted (R218, R246) and any other executes the
instruction at PC. -/
def step (s : State) : Host.Outcome State Fault Refusal :=
  let b := s.atBoundary
  if b.pins.reset then .next b.onReset
  else
    match chooseRequest b.pins b.ctl s.ctl.eiDelay with
    | some k => takeInterrupt k b
    | none => if b.ctl.halted then .next b else runInstruction b

/-- The instruction whose bits are `w`, bit 0 the least significant bit of its first byte and every bit from `nbits`
up 0, stored at PC, with the next boundary open for fetching (log 15). -/
def State.withFetchWord (s : State) (nbits w : Nat) : State := s.openForFetch.plantWord nbits w

end Sys2Proof.Machine
end

