-- ==== Sys2Proof/Safety.lean ====
section
/-! DEFINITION. What counts as a safe run: no step of it is refused, and no step faults. The invariant that every step
keeps. -/

namespace Sys2Proof.Machine

/-- The outcome is a next state. -/
def Completes : Host.Outcome State Fault Refusal → Bool
  | .next _ => true
  | .fault _ => false
  | .refused _ => false

/-- The next `n` steps from `s` all answer a next state. -/
def SafeFor : Nat → State → Prop
  | 0, _ => True
  | n + 1, s => ∃ t, step s = .next t ∧ SafeFor n t

/-- What every step keeps: memory is in its canonical form (R39), and `ei_delay` is 1 only while INTE is 1, since EI
sets both and DI, reset and interrupt entry leave neither (R216, R217, R238). -/
abbrev State.Inv (s : State) : Prop :=
  s.mem.wf = true ∧ (s.ctl.eiDelay = true → s.ctl.inte = true)

end Sys2Proof.Machine
end

