-- ==== Sys2Proof/Claims.lean ====
section
/-! DEFINITION. The vocabulary of the statements: what a read, a store, a push, a pop and a register write are, said
of the states before and after and not through the model's own operations; the flags the rules give; which
instructions the spec's tables list as writers. -/

namespace Sys2Proof.Machine

/-! ## Encodings -/

/-- The bytes, whatever follows them, decode to the instruction and nothing more. -/
def IsEncoding (bytes : List Byte) (i : Instr) : Prop := ∀ rest, decode (bytes ++ rest) = .ok (i, rest)

/-- An opcode byte followed by a 16-bit operand, low byte first (R84). -/
def opcodeAndWord (op : Byte) (v : Word) : List Byte := [op, v.setWidth 8, (v >>> 8).setWidth 8]

/-! ## Reads and stores -/

/-- A free byte is drawn: `v` is the next free value, and only the count of draws moves. -/
def Draws (s : State) (v : Byte) (t : State) : Prop :=
  v = Config.freeByte s.draws ∧ t = { s with draws := s.draws + 1 }

/-- The environment answers a read with `v`: its next reply, or a free value if it holds no reply (R56). -/
def EnvAnswers (s : State) (v : Byte) (t : State) : Prop :=
  match s.ioReplies with
  | [] => Draws s v t
  | w :: rest => v = w ∧ t = { s with ioReplies := rest }

/-- The read of one byte at `a` gives `v` and leaves `t`, for every kind of address (R57): a cell that holds a value
gives it and changes nothing; one that holds none, or an unmapped address, gives a free value; a device address is
handed to the environment and recorded. -/
def Loads (s : State) (a : Word) (v : Byte) (t : State) : Prop :=
  match s.kindAt a with
  | .ram | .rom =>
    match s.cell a with
    | some w => v = w ∧ t = s
    | none => Draws s v t
  | .unmapped => Draws s v t
  | .device => ∃ u, EnvAnswers s v u ∧ t = { u with history := u.history ++ [.deviceRead a v] }

/-- The read of two bytes: the low one at `a`, then the high one at `a + 1` modulo 2^16 (R50, R52). -/
def LoadsWord (s : State) (a : Word) (v : Word) (t : State) : Prop :=
  ∃ lo hi u, Loads s a lo u ∧ Loads u (a + 1) hi t ∧ v = hi ++ lo

/-- The store of one byte at `a` leaves `t`, for every kind of address (R57): in RAM the byte reads back, every other
byte reads as before and nothing else changes; ROM and unmapped addresses change nothing; a device address records
the event. -/
def Stores (s : State) (a : Word) (v : Byte) (t : State) : Prop :=
  match s.kindAt a with
  | .ram => t.cell a = some v ∧ (∀ b, b ≠ a → t.cell b = s.cell b) ∧ t = { s with mem := t.mem }
  | .rom | .unmapped => t = s
  | .device => t = { s with history := s.history ++ [.deviceWrite a v] }

/-- `push16(v)` (R185): the high byte is stored at SP - 1, then the low byte at SP - 2, and SP falls by 2. -/
def Pushes (s : State) (v : Word) (t : State) : Prop :=
  ∃ t1 t2, Stores s (s.sp - 1) ((v >>> 8).setWidth 8) t1 ∧ Stores t1 (s.sp - 2) (v.setWidth 8) t2 ∧
    t = { t2 with sp := s.sp - 2 }

/-- `pop16()` (R185): the low byte is read at SP, then the high byte at SP + 1, and SP rises by 2. -/
def Pops (s : State) (v : Word) (t : State) : Prop :=
  ∃ u, LoadsWord s s.sp v u ∧ t = { u with sp := s.sp + 2 }

/-- The address is RAM or ROM and its cell holds `v`. -/
def Holds (s : State) (a : Word) (v : Byte) : Prop :=
  (s.kindAt a = .ram ∨ s.kindAt a = .rom) ∧ s.cell a = some v

/-! ## Registers and flags -/

/-- Register `r` gets `v`; every other register, and everything but the registers, is unchanged. -/
def RegWritten (s : State) (r : Reg8) (v : Byte) (t : State) : Prop :=
  t.reg r = v ∧ (∀ x, x ≠ r → t.reg x = s.reg x) ∧ t = { s with regs := t.regs }

/-- The state with `A` replaced. -/
def State.withA (s : State) (v : Byte) : State := { s with regs := { s.regs with a := v } }

/-- The state with a pair or SP replaced, the pair's first register the high byte (R21). -/
def State.withPair (s : State) (rp : RegPair) (v : Word) : State :=
  match rp with
  | .b => { s with regs := { s.regs with b := (v >>> 8).setWidth 8, c := v.setWidth 8 } }
  | .d => { s with regs := { s.regs with d := (v >>> 8).setWidth 8, e := v.setWidth 8 } }
  | .h => { s with regs := { s.regs with h := (v >>> 8).setWidth 8, l := v.setWidth 8 } }
  | .sp => { s with sp := v }

/-- The state with PC moved on by the instruction's length (R27). -/
def State.after (s : State) (length : Word) : State := { s with pc := s.pc + length }

/-- Z, S and P as R29 gives them from the result, with AC and CY given. -/
def resultFlags (res : Byte) (ac cy : Bool) : Flags where
  z := decide (res = 0)
  s := decide (0x80 ≤ res.toNat)
  p := decide (((List.range 8).filter fun i => res.getLsbD i).length % 2 = 0)
  ac := ac
  cy := cy

/-- The state after `A <- A + v + cin` with all five flags as R29 and R30 give them. -/
def State.afterAdd (s : State) (v : Byte) (cin : Bool) : State :=
  let res := s.regs.a + v + (if cin then 1 else 0)
  let c := if cin then 1 else 0
  { s.withA res with
    flags := resultFlags res (decide (16 ≤ s.regs.a.toNat % 16 + v.toNat % 16 + c))
      (decide (256 ≤ s.regs.a.toNat + v.toNat + c)) }

/-- The five flags of `A - v - bin`: CY is the borrow; AC is 1 when the low nibble needs no borrow (R29, R30). -/
def subtractFlags (a v : Byte) (bin : Bool) : Flags :=
  let c := if bin then 1 else 0
  resultFlags (a - v - (if bin then 1 else 0)) (decide (v.toNat % 16 + c ≤ a.toNat % 16))
    (decide (a.toNat < v.toNat + c))

/-- The state after `A <- A - v - bin` with all five flags. -/
def State.afterSubtract (s : State) (v : Byte) (bin : Bool) : State :=
  { s.withA (s.regs.a - v - (if bin then 1 else 0)) with flags := subtractFlags s.regs.a v bin }

/-- The state after a logical instruction with result `res`: CY 0, AC as given, Z, S, P from `res` (R160). -/
def State.afterLogic (s : State) (res : Byte) (ac : Bool) : State :=
  { s.withA res with flags := resultFlags res ac false }

/-- The flag byte `v` shows the flags at bits 7, 6, 4, 2 and 0; bits 5, 3 and 1 may be anything (R32). -/
def ShowsFlags (v : Byte) (f : Flags) : Prop :=
  v.getLsbD 7 = f.s ∧ v.getLsbD 6 = f.z ∧ v.getLsbD 4 = f.ac ∧ v.getLsbD 2 = f.p ∧ v.getLsbD 0 = f.cy

/-- The truth of a condition, as the table of R86 gives it. -/
def ConditionHolds (cc : Cond) (f : Flags) : Prop :=
  match cc with
  | .nz => f.z = false
  | .z => f.z = true
  | .nc => f.cy = false
  | .c => f.cy = true
  | .po => f.p = false
  | .pe => f.p = true
  | .p => f.s = false
  | .m => f.s = true

/-! ## The spec's tables of writers -/

/-- The instructions whose data accesses the table of R54 lists with a write (to memory). -/
def storesMemory : Instr → Bool
  | .movMR _ | .mviM _ | .inrM | .dcrM | .sta _ | .shld _ | .stax _ | .pushRp _ | .pushPsw | .xthl
  | .call _ | .cccc _ _ | .rst _ => true
  | _ => false

/-- The registers of a pair; SP has none (R21). -/
def pairHas : RegPair → Reg8 → Bool
  | .b, r => r == .b || r == .c
  | .d, r => r == .d || r == .e
  | .h, r => r == .h || r == .l
  | .sp, _ => false

/-- The registers that the table of R23 lists an instruction as writing, with MOV and MVI writing their destination. -/
def writesReg : Instr → Reg8 → Bool
  | .movRR dst _, r | .movRM dst, r | .mviR dst _, r | .inrR dst, r | .dcrR dst, r => r == dst
  | .lxi rp _, r | .inx rp, r | .dcx rp, r | .popRp rp, r => pairHas rp r
  | .lhld _, r | .dad _, r | .xthl, r => pairHas .h r
  | .xchg, r => pairHas .d r || pairHas .h r
  | .lda _, r | .ldax _, r | .addR _, r | .addM, r | .adi _, r | .adcR _, r | .adcM, r | .aci _, r
  | .subR _, r | .subM, r | .sui _, r | .sbbR _, r | .sbbM, r | .sbi _, r | .daa, r
  | .anaR _, r | .anaM, r | .ani _, r | .xraR _, r | .xraM, r | .xri _, r | .oraR _, r | .oraM, r | .ori _, r
  | .cma, r | .rlc, r | .rrc, r | .ral, r | .rar, r | .popPsw, r | .inPort _, r | .rim, r => r == .a
  | _, _ => false

/-- The instructions that the SP line of R23 lists as its writers: LXI SP, INX SP, DCX SP, SPHL, PUSH, POP, CALL,
Cccc, RET, Rccc, RST. -/
def writesSp : Instr → Bool
  | .lxi rp _ | .inx rp | .dcx rp => rp == .sp
  | .sphl | .pushRp _ | .pushPsw | .popRp _ | .popPsw | .call _ | .cccc _ _ | .ret | .rccc _ | .rst _ => true
  | _ => false

/-- The instructions that the table of R31 lists as writers of Z, S, P and AC, DAA apart. -/
def writesZspAc : Instr → Bool
  | .addR _ | .addM | .adi _ | .adcR _ | .adcM | .aci _ | .subR _ | .subM | .sui _ | .sbbR _ | .sbbM | .sbi _
  | .cmpR _ | .cmpM | .cpi _ | .anaR _ | .anaM | .ani _ | .xraR _ | .xraM | .xri _ | .oraR _ | .oraM | .ori _
  | .inrR _ | .inrM | .dcrR _ | .dcrM | .popPsw => true
  | _ => false

/-- The instructions that the table of R31 lists as writers of CY, DAA apart. -/
def writesCy : Instr → Bool
  | .addR _ | .addM | .adi _ | .adcR _ | .adcM | .aci _ | .subR _ | .subM | .sui _ | .sbbR _ | .sbbM | .sbi _
  | .cmpR _ | .cmpM | .cpi _ | .anaR _ | .anaM | .ani _ | .xraR _ | .xraM | .xri _ | .oraR _ | .oraM | .ori _
  | .dad _ | .rlc | .rrc | .ral | .rar | .cmc | .stc | .popPsw => true
  | _ => false

/-- The instructions whose flags depend on a flag parameter of R7: DAA on `DAA_FLAGS`, the XORs and ORs on
`LOGIC_AC`. -/
def readsFlagReading : Instr → Bool
  | .daa | .xraR _ | .xraM | .xri _ | .oraR _ | .oraM | .ori _ => true
  | _ => false

/-- The same machine under other readings of the two flag parameters. -/
def State.withReadings (s : State) (daa logic : Reading) : State :=
  { s with params := { s.params with daaFlags := daa, logicAc := logic } }

/-- The ten opcode bytes that no row selects (R91). -/
def unassignedBytes : List Byte := [0x08, 0x10, 0x18, 0x28, 0x38, 0xCB, 0xD9, 0xDD, 0xED, 0xFD]

/-- The packed-BCD byte of a number below 100. -/
def packedBcd (n : Nat) : Byte := BitVec.ofNat 8 (n / 10 * 16 + n % 10)

/-! ## Boundaries -/

/-- Where a vectored interrupt goes (R233, R238 step 5); INTR has no vector. -/
def vectorOf : Source → Option Word
  | .trap => some 0x0024
  | .rst75 => some 0x003C
  | .rst65 => some 0x0034
  | .rst55 => some 0x002C
  | .intr => none

/-- What entering an interrupt makes of the control state (R238 step 5): the halt ends and INTE is cleared; TRAP keeps
the old INTE for RIM; RST 7.5 clears its latch. -/
def entryControl (k : Source) (c : Control) : Control :=
  match k with
  | .trap => { c with halted := false, inte := false, trapIe := c.inte, trapPendingRim := true }
  | .rst75 => { c with halted := false, inte := false, r75 := false }
  | .rst65 | .rst55 | .intr => { c with halted := false, inte := false }

/-- The boundary that the state's next step begins with takes no reset and no interrupt, and the machine is not
halted: the step executes the instruction at PC (R238 step 4). -/
def State.executesNext (s : State) : Prop :=
  s.atBoundary.pins.reset = false ∧ chooseRequest s.atBoundary.pins s.atBoundary.ctl s.ctl.eiDelay = none ∧
    s.ctl.halted = false

end Sys2Proof.Machine
end

