-- ==== Sys2Proof/Certificates/Slice0/Obligations.lean ====
section
/-! DEFINITION. The statements for the provers. Each docstring names the rule of spec/ that a statement formalises, or
says what it rests on. -/

open Sys2Proof Sys2Proof.Machine

/-! ## Encoding -/

/-- R80 to R89: decoding an encoded well-formed instruction gives it back, and leaves the bytes after it. -/
def Obligations.DecodeOfEncode : Prop :=
  ∀ (i : Instr) (rest : List Byte), i.wellFormed = true → decode (encode i ++ rest) = .ok (i, rest)

/-- R80 to R90: whatever decodes is the encoding of the well-formed instruction it decodes to: no two byte strings
mean the same instruction. -/
def Obligations.EncodeOfDecode : Prop :=
  ∀ (bytes rest : List Byte) (i : Instr), decode bytes = .ok (i, rest) →
    i.wellFormed = true ∧ bytes = encode i ++ rest

/-- R93: the length the opcode byte alone gives is the length of what it selects; R88 to R91: there are 74 rows, the
ten unassigned bytes select none of them and every other byte selects exactly one. -/
def Obligations.OpcodeByteSelectsOneRowAndLength : Prop :=
  opcodeRows.length = 74 ∧
    ∀ op : Byte,
      (opcodeRows.filter fun r => (r.select op).isSome).length = (if op ∈ unassignedBytes then 0 else 1) ∧
        (decodeOpcode op).map Selected.length = opcodeLength op

/-- R88, one or two words of each family written out from its patterns. -/
def Obligations.SampleWordsDecode : Prop :=
  decode [0x78] = .ok (.movRR .a .b, []) ∧ decode [0x4E] = .ok (.movRM .c, []) ∧
  decode [0x21, 0x50, 0x20] = .ok (.lxi .h 0x2050, []) ∧ decode [0x2A, 0x00, 0x22] = .ok (.lhld 0x2200, []) ∧
  decode [0x9D] = .ok (.sbbR .l, []) ∧ decode [0x34] = .ok (.inrM, []) ∧ decode [0x39] = .ok (.dad .sp, []) ∧
  decode [0xEE, 0x81] = .ok (.xri 0x81, []) ∧ decode [0x1F] = .ok (.rar, []) ∧
  decode [0xDC, 0x00, 0x30] = .ok (.cccc .c 0x3000, []) ∧ decode [0xEF] = .ok (.rst 5, []) ∧
  decode [0xD5] = .ok (.pushRp .d, []) ∧ decode [0xF5] = .ok (.pushPsw, []) ∧
  decode [0xD3, 0x10] = .ok (.outPort 0x10, []) ∧ decode [0x76] = .ok (.hlt, []) ∧ decode [0x30] = .ok (.sim, [])

/-- R51, R238 step 4: at a boundary that takes nothing, with the machine not halted, when the bytes at PC, modulo
2^16, decode to the instruction `i`, the step is `exec i` at the state of the boundary. -/
def Obligations.StepRunsDecodedInstruction : Prop :=
  ∀ (s : State) (bytes : List Byte) (i : Instr), s.executesNext → decode bytes = .ok (i, []) →
    (∀ (k : Nat) (h : k < bytes.length), Holds s (s.pc + BitVec.ofNat 16 k) bytes[k]) →
    step s = exec i s.atBoundary

/-- An unassigned byte at PC is refused with the byte and its address (R91, R231). That nothing else is ever refused
but an INTR acknowledge follows from R230, by which every instruction completes, R231, R240 and U13. -/
def Obligations.RefusalsAreTheSpecsTwo : Prop :=
  (∀ (s : State) (op : Byte), s.executesNext → op ∈ unassignedBytes → Holds s s.pc op →
    step s = .refused (.illegalOpcode op s.pc)) ∧
  (∀ (s : State) (r : Refusal), step s = .refused r →
    (s.executesNext ∧ ∃ op ∈ unassignedBytes, r = .illegalOpcode op s.pc) ∨
    (chooseRequest s.atBoundary.pins s.atBoundary.ctl s.ctl.eiDelay = some .intr ∧
      r = .intrInstruction s.atBoundary.pins.intrInsn))

/-! ## Data transfer -/

/-- R111, R114: MOV r1,r2 and MVI r,byte write their destination and PC, nothing else. -/
def Obligations.MoveToRegister : Prop :=
  (∀ dst src : Reg8, IsEncoding [packOpcode 0b01 dst.code src.code] (.movRR dst src) ∧
    ∀ s : State, ∃ t, RegWritten s dst (s.reg src) t ∧ exec (.movRR dst src) s = .next (t.after 1)) ∧
  (∀ (dst : Reg8) (imm : Byte), IsEncoding [packOpcode 0b00 dst.code 0b110, imm] (.mviR dst imm) ∧
    ∀ s : State, ∃ t, RegWritten s dst imm t ∧ exec (.mviR dst imm) s = .next (t.after 2))

/-- R112, R117, R121: MOV r,M, LDA and LDAX (pairs B and D) load one byte, for every kind of address. -/
def Obligations.LoadByteIntoRegister : Prop :=
  (∀ dst : Reg8, IsEncoding [packOpcode 0b01 dst.code 0b110] (.movRM dst) ∧
    ∀ s : State, ∃ v u t, Loads s s.hl v u ∧ RegWritten u dst v t ∧ exec (.movRM dst) s = .next (t.after 1)) ∧
  (∀ dir : Word, IsEncoding (opcodeAndWord 0x3A dir) (.lda dir) ∧
    ∀ s : State, ∃ v t, Loads s dir v t ∧ exec (.lda dir) s = .next ((t.withA v).after 3)) ∧
  (∀ rp : RegPair, (Instr.ldax rp).wellFormed = true →
    IsEncoding [packPairOpcode 0b00 rp.code 0b1010] (.ldax rp) ∧
    ∀ s : State, ∃ v t, Loads s (s.pair rp) v t ∧ exec (.ldax rp) s = .next ((t.withA v).after 1))

/-- R113, R115, R118, R122: MOV M,r, MVI M, STA and STAX store one byte, for every kind of address; every other byte
and everything else but PC is unchanged. -/
def Obligations.StoreByte : Prop :=
  (∀ src : Reg8, IsEncoding [packOpcode 0b01 0b110 src.code] (.movMR src) ∧
    ∀ s : State, ∃ t, Stores s s.hl (s.reg src) t ∧ exec (.movMR src) s = .next (t.after 1)) ∧
  (∀ imm : Byte, IsEncoding [0x36, imm] (.mviM imm) ∧
    ∀ s : State, ∃ t, Stores s s.hl imm t ∧ exec (.mviM imm) s = .next (t.after 2)) ∧
  (∀ dir : Word, IsEncoding (opcodeAndWord 0x32 dir) (.sta dir) ∧
    ∀ s : State, ∃ t, Stores s dir s.regs.a t ∧ exec (.sta dir) s = .next (t.after 3)) ∧
  (∀ rp : RegPair, (Instr.stax rp).wellFormed = true →
    IsEncoding [packPairOpcode 0b00 rp.code 0b0010] (.stax rp) ∧
    ∀ s : State, ∃ t, Stores s (s.pair rp) s.regs.a t ∧ exec (.stax rp) s = .next (t.after 1))

/-- R116: LXI loads a pair or SP with the immediate. -/
def Obligations.LoadPairImmediate : Prop :=
  ∀ (rp : RegPair) (imm : Word), IsEncoding (opcodeAndWord (packPairOpcode 0b00 rp.code 0b0001) imm) (.lxi rp imm) ∧
    ∀ s : State, exec (.lxi rp imm) s = .next ((s.withPair rp imm).after 3)

/-- R119, R120: LHLD and SHLD move HL from and to two consecutive bytes, L at `dir` first, H at `dir + 1` modulo
2^16. -/
def Obligations.LoadAndStoreHlDirect : Prop :=
  (∀ dir : Word, IsEncoding (opcodeAndWord 0x2A dir) (.lhld dir) ∧
    ∀ s : State, ∃ v t, LoadsWord s dir v t ∧ exec (.lhld dir) s = .next ((t.withPair .h v).after 3)) ∧
  (∀ dir : Word, IsEncoding (opcodeAndWord 0x22 dir) (.shld dir) ∧
    ∀ s : State, ∃ t u, Stores s dir s.regs.l t ∧ Stores t (dir + 1) s.regs.h u ∧
      exec (.shld dir) s = .next (u.after 3))

/-- R123, R206: XCHG exchanges HL and DE; SPHL copies HL to SP. -/
def Obligations.ExchangeAndLoadSp : Prop :=
  (IsEncoding [0xEB] .xchg ∧ ∀ s : State, exec .xchg s = .next (State.after { s with regs :=
    { s.regs with h := s.regs.d, l := s.regs.e, d := s.regs.h, e := s.regs.l } } 1)) ∧
  (IsEncoding [0xF9] .sphl ∧ ∀ s : State, exec .sphl s = .next (State.after { s with sp := s.regs.h ++ s.regs.l } 1))

/-! ## Arithmetic -/

/-- R131 to R133: ADD r, ADD M, ADI. -/
def Obligations.AddResult : Prop :=
  (∀ src : Reg8, IsEncoding [packOpcode 0b10 0b000 src.code] (.addR src) ∧
    ∀ s : State, exec (.addR src) s = .next ((s.afterAdd (s.reg src) false).after 1)) ∧
  (IsEncoding [0x86] .addM ∧
    ∀ s : State, ∃ v t, Loads s s.hl v t ∧ exec .addM s = .next ((t.afterAdd v false).after 1)) ∧
  (∀ imm : Byte, IsEncoding [0xC6, imm] (.adi imm) ∧
    ∀ s : State, exec (.adi imm) s = .next ((s.afterAdd imm false).after 2))

/-- R134 to R136: ADC r, ADC M, ACI, with the CY of before the instruction. -/
def Obligations.AddWithCarryResult : Prop :=
  (∀ src : Reg8, IsEncoding [packOpcode 0b10 0b001 src.code] (.adcR src) ∧
    ∀ s : State, exec (.adcR src) s = .next ((s.afterAdd (s.reg src) s.flags.cy).after 1)) ∧
  (IsEncoding [0x8E] .adcM ∧
    ∀ s : State, ∃ v t, Loads s s.hl v t ∧ exec .adcM s = .next ((t.afterAdd v s.flags.cy).after 1)) ∧
  (∀ imm : Byte, IsEncoding [0xCE, imm] (.aci imm) ∧
    ∀ s : State, exec (.aci imm) s = .next ((s.afterAdd imm s.flags.cy).after 2))

/-- R137 to R139: SUB r, SUB M, SUI. -/
def Obligations.SubtractResult : Prop :=
  (∀ src : Reg8, IsEncoding [packOpcode 0b10 0b010 src.code] (.subR src) ∧
    ∀ s : State, exec (.subR src) s = .next ((s.afterSubtract (s.reg src) false).after 1)) ∧
  (IsEncoding [0x96] .subM ∧
    ∀ s : State, ∃ v t, Loads s s.hl v t ∧ exec .subM s = .next ((t.afterSubtract v false).after 1)) ∧
  (∀ imm : Byte, IsEncoding [0xD6, imm] (.sui imm) ∧
    ∀ s : State, exec (.sui imm) s = .next ((s.afterSubtract imm false).after 2))

/-- R140 to R142: SBB r, SBB M, SBI, with the CY of before the instruction as the borrow. -/
def Obligations.SubtractWithBorrowResult : Prop :=
  (∀ src : Reg8, IsEncoding [packOpcode 0b10 0b011 src.code] (.sbbR src) ∧
    ∀ s : State, exec (.sbbR src) s = .next ((s.afterSubtract (s.reg src) s.flags.cy).after 1)) ∧
  (IsEncoding [0x9E] .sbbM ∧
    ∀ s : State, ∃ v t, Loads s s.hl v t ∧ exec .sbbM s = .next ((t.afterSubtract v s.flags.cy).after 1)) ∧
  (∀ imm : Byte, IsEncoding [0xDE, imm] (.sbi imm) ∧
    ∀ s : State, exec (.sbi imm) s = .next ((s.afterSubtract imm s.flags.cy).after 2))

/-- R151 to R153: CMP r, CMP M and CPI write the flags of the subtraction and no register; Z is 1 exactly when A is
the operand, CY exactly when A is below it. -/
def Obligations.CompareFlags : Prop :=
  (∀ src : Reg8, IsEncoding [packOpcode 0b10 0b111 src.code] (.cmpR src) ∧
    ∀ s : State, exec (.cmpR src) s =
      .next (State.after { s with flags := subtractFlags s.regs.a (s.reg src) false } 1)) ∧
  (IsEncoding [0xBE] .cmpM ∧
    ∀ s : State, ∃ v t, Loads s s.hl v t ∧
      exec .cmpM s = .next (State.after { t with flags := subtractFlags s.regs.a v false } 1)) ∧
  (∀ imm : Byte, IsEncoding [0xFE, imm] (.cpi imm) ∧
    ∀ s : State, exec (.cpi imm) s = .next (State.after { s with flags := subtractFlags s.regs.a imm false } 2)) ∧
  (∀ a v : Byte, ((subtractFlags a v false).z = true ↔ a = v) ∧ ((subtractFlags a v false).cy = true ↔ a.toNat < v.toNat))

/-- R143 to R146: INR and DCR, register and memory forms; CY is not written. -/
def Obligations.IncrementAndDecrement : Prop :=
  (∀ reg : Reg8, IsEncoding [packOpcode 0b00 reg.code 0b100] (.inrR reg) ∧
    ∀ s : State, ∃ t, RegWritten s reg (s.reg reg + 1) t ∧ exec (.inrR reg) s = .next (State.after { t with
      flags := resultFlags (s.reg reg + 1) (decide ((s.reg reg).toNat % 16 = 15)) s.flags.cy } 1)) ∧
  (IsEncoding [0x34] .inrM ∧
    ∀ s : State, ∃ v u t, Loads s s.hl v u ∧ Stores u s.hl (v + 1) t ∧ exec .inrM s = .next (State.after { t with
      flags := resultFlags (v + 1) (decide (v.toNat % 16 = 15)) s.flags.cy } 1)) ∧
  (∀ reg : Reg8, IsEncoding [packOpcode 0b00 reg.code 0b101] (.dcrR reg) ∧
    ∀ s : State, ∃ t, RegWritten s reg (s.reg reg - 1) t ∧ exec (.dcrR reg) s = .next (State.after { t with
      flags := resultFlags (s.reg reg - 1) (decide ((s.reg reg).toNat % 16 ≠ 0)) s.flags.cy } 1)) ∧
  (IsEncoding [0x35] .dcrM ∧
    ∀ s : State, ∃ v u t, Loads s s.hl v u ∧ Stores u s.hl (v - 1) t ∧ exec .dcrM s = .next (State.after { t with
      flags := resultFlags (v - 1) (decide (v.toNat % 16 ≠ 0)) s.flags.cy } 1))

/-- R147, R148: INX and DCX change the pair or SP modulo 2^16 and no flag. -/
def Obligations.PairIncrementAndDecrement : Prop :=
  ∀ rp : RegPair, IsEncoding [packPairOpcode 0b00 rp.code 0b0011] (.inx rp) ∧
    IsEncoding [packPairOpcode 0b00 rp.code 0b1011] (.dcx rp) ∧
    ∀ s : State, exec (.inx rp) s = .next ((s.withPair rp (s.pair rp + 1)).after 1) ∧
      exec (.dcx rp) s = .next ((s.withPair rp (s.pair rp - 1)).after 1)

/-- R149: DAD adds a pair or SP to HL; CY is the carry out of bit 15, and no other flag is written. -/
def Obligations.DoubleAdd : Prop :=
  ∀ rp : RegPair, IsEncoding [packPairOpcode 0b00 rp.code 0b1001] (.dad rp) ∧
    ∀ s : State, exec (.dad rp) s = .next (State.after { s.withPair .h (s.hl + s.pair rp) with
      flags := { s.flags with cy := decide (65536 ≤ s.hl.toNat + (s.pair rp).toNat) } } 1)

/-- R150: DAA, under both settings of `DAA_FLAGS`. -/
def Obligations.DecimalAdjust : Prop :=
  IsEncoding [0x27] .daa ∧
  ∀ s : State,
    let lo := s.regs.a.toNat % 16
    let hi := s.regs.a.toNat / 16
    let low := decide (9 < lo) || s.flags.ac
    let high := decide (9 < hi) || s.flags.cy || (decide (9 ≤ hi) && decide (9 < lo))
    let corr := (if low then 0x06 else 0) + (if high then 0x60 else 0)
    let res : Byte := BitVec.ofNat 8 (s.regs.a.toNat + corr)
    exec .daa s = .next (State.after { s.withA res with
      flags := match s.params.daaFlags with
        | .source => s.flags
        | .intel => resultFlags res (decide (16 ≤ lo + corr % 16)) (s.flags.cy || high) } 1)

/-- R150: after ADI or ACI on packed-BCD bytes, DAA leaves the packed-BCD sum in A; and under `DAA_FLAGS = intel` CY
is the decimal carry. -/
def Obligations.DecimalAdjustGivesDecimalSum : Prop :=
  ∀ (s : State) (x y : Nat), x < 100 → y < 100 → s.regs.a = packedBcd x →
    (∃ t u, exec (.adi (packedBcd y)) s = .next t ∧ exec .daa t = .next u ∧
      u.regs.a = packedBcd ((x + y) % 100) ∧
      (s.params.daaFlags = .intel → u.flags.cy = decide (100 ≤ x + y))) ∧
    (∃ t u, exec (.aci (packedBcd y)) s = .next t ∧ exec .daa t = .next u ∧
      u.regs.a = packedBcd ((x + y + s.flags.cy.toNat) % 100) ∧
      (s.params.daaFlags = .intel → u.flags.cy = decide (100 ≤ x + y + s.flags.cy.toNat)))

/-! ## Logical -/

/-- R160 to R163: ANA r, ANA M, ANI; AC is 1 under both settings of `LOGIC_AC`. -/
def Obligations.AndResult : Prop :=
  (∀ src : Reg8, IsEncoding [packOpcode 0b10 0b100 src.code] (.anaR src) ∧
    ∀ s : State, exec (.anaR src) s = .next ((s.afterLogic (s.regs.a &&& s.reg src) true).after 1)) ∧
  (IsEncoding [0xA6] .anaM ∧
    ∀ s : State, ∃ v t, Loads s s.hl v t ∧ exec .anaM s = .next ((t.afterLogic (s.regs.a &&& v) true).after 1)) ∧
  (∀ imm : Byte, IsEncoding [0xE6, imm] (.ani imm) ∧
    ∀ s : State, exec (.ani imm) s = .next ((s.afterLogic (s.regs.a &&& imm) true).after 2))

/-- R160, R164 to R169: the XOR and OR forms; AC is 1 exactly under `LOGIC_AC = source`. -/
def Obligations.XorAndOrResult : Prop :=
  ∀ s : State,
    let ac := decide (s.params.logicAc = .source)
    ((∀ src : Reg8, IsEncoding [packOpcode 0b10 0b101 src.code] (.xraR src) ∧
        exec (.xraR src) s = .next ((s.afterLogic (s.regs.a ^^^ s.reg src) ac).after 1)) ∧
      (IsEncoding [0xAE] .xraM ∧
        ∃ v t, Loads s s.hl v t ∧ exec .xraM s = .next ((t.afterLogic (s.regs.a ^^^ v) ac).after 1)) ∧
      (∀ imm : Byte, IsEncoding [0xEE, imm] (.xri imm) ∧
        exec (.xri imm) s = .next ((s.afterLogic (s.regs.a ^^^ imm) ac).after 2))) ∧
    ((∀ src : Reg8, IsEncoding [packOpcode 0b10 0b110 src.code] (.oraR src) ∧
        exec (.oraR src) s = .next ((s.afterLogic (s.regs.a ||| s.reg src) ac).after 1)) ∧
      (IsEncoding [0xB6] .oraM ∧
        ∃ v t, Loads s s.hl v t ∧ exec .oraM s = .next ((t.afterLogic (s.regs.a ||| v) ac).after 1)) ∧
      (∀ imm : Byte, IsEncoding [0xF6, imm] (.ori imm) ∧
        exec (.ori imm) s = .next ((s.afterLogic (s.regs.a ||| imm) ac).after 2)))

/-- R170, R180, R181: CMA complements A and writes no flag; CMC and STC write CY alone. -/
def Obligations.ComplementAndCarry : Prop :=
  (IsEncoding [0x2F] .cma ∧ ∀ s : State, exec .cma s = .next ((s.withA (255 - s.regs.a)).after 1)) ∧
  (IsEncoding [0x3F] .cmc ∧
    ∀ s : State, exec .cmc s = .next (State.after { s with flags := { s.flags with cy := !s.flags.cy } } 1)) ∧
  (IsEncoding [0x37] .stc ∧
    ∀ s : State, exec .stc s = .next (State.after { s with flags := { s.flags with cy := true } } 1))

/-! ## Rotate -/

/-- R176 to R179: RLC, RRC, RAL and RAR write A and CY, no other flag. -/
def Obligations.Rotations : Prop :=
  IsEncoding [0x07] .rlc ∧ IsEncoding [0x0F] .rrc ∧ IsEncoding [0x17] .ral ∧ IsEncoding [0x1F] .rar ∧
  ∀ s : State,
    exec .rlc s = .next (State.after { s.withA (s.regs.a.rotateLeft 1) with
      flags := { s.flags with cy := s.regs.a.getLsbD 7 } } 1) ∧
    exec .rrc s = .next (State.after { s.withA (s.regs.a.rotateRight 1) with
      flags := { s.flags with cy := s.regs.a.getLsbD 0 } } 1) ∧
    exec .ral s = .next (State.after { s.withA ((s.regs.a <<< 1) ||| (if s.flags.cy then 0x01 else 0x00)) with
      flags := { s.flags with cy := s.regs.a.getLsbD 7 } } 1) ∧
    exec .rar s = .next (State.after { s.withA ((s.regs.a >>> 1) ||| (if s.flags.cy then 0x80 else 0x00)) with
      flags := { s.flags with cy := s.regs.a.getLsbD 0 } } 1)

/-- R176 to R179, corner cases: eight RLC or eight RRC restore A; nine RAL or nine RAR restore A and CY. -/
def Obligations.RotationsReturn : Prop :=
  let run (i : Instr) (s : State) : State := match exec i s with
    | .next t => t
    | .fault _ | .refused _ => s
  ∀ s : State,
    ((run .rlc)^[8] s).regs = s.regs ∧ ((run .rrc)^[8] s).regs = s.regs ∧
    ((run .ral)^[9] s).regs = s.regs ∧ ((run .ral)^[9] s).flags = s.flags ∧
    ((run .rar)^[9] s).regs = s.regs ∧ ((run .rar)^[9] s).flags = s.flags

/-! ## Jump, call, return, restart -/

/-- R186, R187, R193: JMP, Jccc and PCHL write PC alone. -/
def Obligations.Jumps : Prop :=
  (∀ dir : Word, IsEncoding (opcodeAndWord 0xC3 dir) (.jmp dir) ∧
    ∀ s : State, exec (.jmp dir) s = .next { s with pc := dir }) ∧
  (∀ (cc : Cond) (dir : Word), IsEncoding (opcodeAndWord (packOpcode 0b11 cc.code 0b010) dir) (.jccc cc dir) ∧
    ∀ s : State, (ConditionHolds cc s.flags → exec (.jccc cc dir) s = .next { s with pc := dir }) ∧
      (¬ ConditionHolds cc s.flags → exec (.jccc cc dir) s = .next (s.after 3))) ∧
  (IsEncoding [0xE9] .pchl ∧ ∀ s : State, exec .pchl s = .next { s with pc := s.regs.h ++ s.regs.l })

/-- R188, R189: CALL and a taken Cccc push the address of the next instruction and jump; a Cccc not taken only moves
on. -/
def Obligations.Calls : Prop :=
  (∀ dir : Word, IsEncoding (opcodeAndWord 0xCD dir) (.call dir) ∧
    ∀ s : State, ∃ t, Pushes s (s.pc + 3) t ∧ exec (.call dir) s = .next { t with pc := dir }) ∧
  (∀ (cc : Cond) (dir : Word), IsEncoding (opcodeAndWord (packOpcode 0b11 cc.code 0b100) dir) (.cccc cc dir) ∧
    ∀ s : State,
      (ConditionHolds cc s.flags →
        ∃ t, Pushes s (s.pc + 3) t ∧ exec (.cccc cc dir) s = .next { t with pc := dir }) ∧
      (¬ ConditionHolds cc s.flags → exec (.cccc cc dir) s = .next (s.after 3)))

/-- R190, R191: RET and a taken Rccc pop PC; an Rccc not taken only moves on. -/
def Obligations.Returns : Prop :=
  (IsEncoding [0xC9] .ret ∧
    ∀ s : State, ∃ v t, Pops s v t ∧ exec .ret s = .next { t with pc := v }) ∧
  (∀ cc : Cond, IsEncoding [packOpcode 0b11 cc.code 0b000] (.rccc cc) ∧
    ∀ s : State,
      (ConditionHolds cc s.flags → ∃ v t, Pops s v t ∧ exec (.rccc cc) s = .next { t with pc := v }) ∧
      (¬ ConditionHolds cc s.flags → exec (.rccc cc) s = .next (s.after 1)))

/-- R192: RST n pushes the address of the next instruction and goes to 8·n. -/
def Obligations.Restart : Prop :=
  ∀ n : BitVec 3, IsEncoding [packOpcode 0b11 n 0b111] (.rst n) ∧
    ∀ s : State, ∃ t, Pushes s (s.pc + 1) t ∧ exec (.rst n) s = .next { t with pc := n.setWidth 16 * 8 }

/-- R185, R188, R190: with RAM under the stack, a RET right after a CALL returns to the instruction after the CALL
with everything but the two stack bytes as it was. -/
def Obligations.CallThenReturn : Prop :=
  ∀ (s : State) (dir : Word), s.kindAt (s.sp - 1) = .ram → s.kindAt (s.sp - 2) = .ram →
    ∃ t u, exec (.call dir) s = .next t ∧ t.pc = dir ∧ exec .ret t = .next u ∧
      u = { s with pc := s.pc + 3, mem := u.mem } ∧
      ∀ b, b ≠ s.sp - 1 → b ≠ s.sp - 2 → u.cell b = s.cell b

/-! ## Stack -/

/-- R201, R203: PUSH rp and POP rp, for the pairs B, D and H. -/
def Obligations.PushAndPopPair : Prop :=
  (∀ rp : RegPair, (Instr.pushRp rp).wellFormed = true →
    IsEncoding [packPairOpcode 0b11 rp.code 0b0101] (.pushRp rp) ∧
    ∀ s : State, ∃ t, Pushes s (s.pair rp) t ∧ exec (.pushRp rp) s = .next (t.after 1)) ∧
  (∀ rp : RegPair, (Instr.popRp rp).wellFormed = true →
    IsEncoding [packPairOpcode 0b11 rp.code 0b0001] (.popRp rp) ∧
    ∀ s : State, ∃ v t, Pops s v t ∧ exec (.popRp rp) s = .next ((t.withPair rp v).after 1))

/-- R202, R204: PUSH PSW stores A at SP - 1 and then, at SP - 2, a byte that shows the flags; POP PSW loads the flags
from SP and A from SP + 1. Bits 5, 3 and 1 of the stored byte are free, so one more free value has been drawn. -/
def Obligations.PushAndPopPsw : Prop :=
  (IsEncoding [0xF5] .pushPsw ∧
    ∀ s : State, ∃ t f u, Stores s (s.sp - 1) s.regs.a t ∧ ShowsFlags f s.flags ∧
      Stores { t with draws := s.draws + 1 } (s.sp - 2) f u ∧
      exec .pushPsw s = .next (State.after { u with sp := s.sp - 2 } 1)) ∧
  (IsEncoding [0xF1] .popPsw ∧
    ∀ s : State, ∃ v t, Pops s v t ∧ exec .popPsw s = .next (State.after { t.withA ((v >>> 8).setWidth 8) with
      flags := { s := v.getLsbD 7, z := v.getLsbD 6, ac := v.getLsbD 4, p := v.getLsbD 2, cy := v.getLsbD 0 } } 1))

/-- R204, corner case: with RAM under the stack, PUSH PSW and then POP PSW restores A, the flags and SP, whatever the
free bits are. -/
def Obligations.PswRoundTrip : Prop :=
  ∀ s : State, s.kindAt (s.sp - 1) = .ram → s.kindAt (s.sp - 2) = .ram →
    ∃ t u, exec .pushPsw s = .next t ∧ exec .popPsw t = .next u ∧
      u = { s with pc := s.pc + 2, mem := u.mem, draws := s.draws + 1 } ∧
      ∀ b, b ≠ s.sp - 1 → b ≠ s.sp - 2 → u.cell b = s.cell b

/-- R205: XTHL reads SP and SP + 1, then writes old H at SP + 1 and old L at SP; SP stays. -/
def Obligations.ExchangeWithStack : Prop :=
  IsEncoding [0xE3] .xthl ∧
  ∀ s : State, ∃ v t u w, LoadsWord s s.sp v t ∧ Stores t (s.sp + 1) s.regs.h u ∧ Stores u s.sp s.regs.l w ∧
    exec .xthl s = .next ((w.withPair .h v).after 1)

/-! ## Input and output -/

/-- R211, R212: IN takes the environment's answer into A and records it; OUT records A; neither writes a flag. -/
def Obligations.InputAndOutput : Prop :=
  (∀ port : Byte, IsEncoding [0xDB, port] (.inPort port) ∧
    ∀ s : State, ∃ v t, EnvAnswers s v t ∧ exec (.inPort port) s =
      .next (State.after { t.withA v with history := s.history ++ [.portRead port v] } 2)) ∧
  (∀ port : Byte, IsEncoding [0xD3, port] (.outPort port) ∧
    ∀ s : State, exec (.outPort port) s =
      .next (State.after { s with history := s.history ++ [.portWrite port s.regs.a] } 2))

/-! ## Processor control -/

/-- The operations of R216 to R219: EI, DI, HLT and NOP. What `ei_delay` and `halted` then do is stated by
`EiDelaysOneBoundary` and `HaltedUntilInterruptOrReset`. -/
def Obligations.EnableDisableHaltNop : Prop :=
  IsEncoding [0xFB] .ei ∧ IsEncoding [0xF3] .di ∧ IsEncoding [0x76] .hlt ∧ IsEncoding [0x00] .nop ∧
  ∀ s : State,
    exec .ei s = .next (State.after { s with ctl := { s.ctl with inte := true, eiDelay := true } } 1) ∧
    exec .di s = .next (State.after { s with ctl := { s.ctl with inte := false, eiDelay := false } } 1) ∧
    exec .hlt s = .next (State.after { s with ctl := { s.ctl with halted := true } } 1) ∧
    exec .nop s = .next (s.after 1)

/-- R220: RIM writes A, bit by bit, and uses up the TRAP report; bit 7 is the environment's level, or free where it
leaves the level open. That the levels are those of the sample of the boundary just passed is the model's choice
(log 6). -/
def Obligations.ReadInterruptMask : Prop :=
  IsEncoding [0x20] .rim ∧
  ∀ s : State, ∃ v : Byte,
    (∀ level, s.pins.sid = some level → v.getLsbD 7 = level) ∧
    v.getLsbD 6 = s.ctl.r75 ∧ v.getLsbD 5 = s.pins.rst65 ∧ v.getLsbD 4 = s.pins.rst55 ∧
    v.getLsbD 3 = (if s.ctl.trapPendingRim then s.ctl.trapIe else s.ctl.inte) ∧
    v.getLsbD 2 = s.ctl.m75 ∧ v.getLsbD 1 = s.ctl.m65 ∧ v.getLsbD 0 = s.ctl.m55 ∧
    exec .rim s = .next (State.after { s.withA v with
      ctl := { s.ctl with trapPendingRim := false }
      draws := if s.pins.sid = none then s.draws + 1 else s.draws } 1)

/-- R221: SIM's three parts, each by its enable bit; A is unchanged. That a change of SOD is recorded in the event
history at the SIM that makes it is the model's choice (log 14). -/
def Obligations.SetInterruptMask : Prop :=
  IsEncoding [0x30] .sim ∧
  ∀ s : State,
    let a := s.regs.a
    let sod := if a.getLsbD 6 then a.getLsbD 7 else s.ctl.sod
    exec .sim s = .next (State.after { s with
      ctl := { s.ctl with
        m75 := if a.getLsbD 3 then a.getLsbD 2 else s.ctl.m75
        m65 := if a.getLsbD 3 then a.getLsbD 1 else s.ctl.m65
        m55 := if a.getLsbD 3 then a.getLsbD 0 else s.ctl.m55
        r75 := if a.getLsbD 4 then false else s.ctl.r75
        sod := sod }
      history := if sod = s.ctl.sod then s.history else s.history ++ [.serialOut sod] } 1)

/-! ## Interrupts and reset -/

/-- R233 to R235, R238 step 3: which request is taken: TRAP whenever present; the others only with INTE 1 and the
boundary open, RST 7.5, 6.5 and 5.5 only unmasked, in the order TRAP, RST 7.5, RST 6.5, RST 5.5, INTR. -/
def Obligations.InterruptPriority : Prop :=
  ∀ (p : Pins) (c : Control) (blocked : Bool),
    let maskable := p.trap = false ∧ blocked = false ∧ c.inte = true
    let want75 := c.r75 = true ∧ c.m75 = false
    let want65 := p.rst65 = true ∧ c.m65 = false
    let want55 := p.rst55 = true ∧ c.m55 = false
    (chooseRequest p c blocked = some .trap ↔ p.trap = true) ∧
    (chooseRequest p c blocked = some .rst75 ↔ maskable ∧ want75) ∧
    (chooseRequest p c blocked = some .rst65 ↔ maskable ∧ ¬ want75 ∧ want65) ∧
    (chooseRequest p c blocked = some .rst55 ↔ maskable ∧ ¬ want75 ∧ ¬ want65 ∧ want55) ∧
    (chooseRequest p c blocked = some .intr ↔ maskable ∧ ¬ want75 ∧ ¬ want65 ∧ ¬ want55 ∧ p.intr = true)

/-- R233, R238 step 5: a step whose boundary takes TRAP, RST 7.5, RST 6.5 or RST 5.5 pushes PC, clears INTE, ends a
halt and goes to the source's vector; registers and flags are unchanged. -/
def Obligations.VectoredInterruptEntry : Prop :=
  ∀ (s : State) (k : Source) (vector : Word), s.atBoundary.pins.reset = false →
    chooseRequest s.atBoundary.pins s.atBoundary.ctl s.ctl.eiDelay = some k → vectorOf k = some vector →
    ∃ t, Pushes { s.atBoundary with ctl := entryControl k s.atBoundary.ctl } s.pc t ∧
      step s = .next { t with pc := vector }

/-- R240: when INTR is taken, the supplied RST n or CALL dir pushes the interrupted program's PC, not advanced, and
goes to 8·n or `dir`; anything else that is supplied is refused by name (R240, U13). That a longer list which begins
with an RST n or a CALL dir counts as anything else is the model's reading (DEDUCED, log 12). -/
def Obligations.IntrAcknowledge : Prop :=
  ∀ s : State, s.atBoundary.pins.reset = false →
    chooseRequest s.atBoundary.pins s.atBoundary.ctl s.ctl.eiDelay = some .intr →
    let entered := { s.atBoundary with ctl := entryControl .intr s.atBoundary.ctl }
    let bytes := s.atBoundary.pins.intrInsn
    (∀ n : BitVec 3, bytes = [packOpcode 0b11 n 0b111] →
      ∃ t, Pushes entered s.pc t ∧ step s = .next { t with pc := n.setWidth 16 * 8 }) ∧
    (∀ dir : Word, bytes = opcodeAndWord 0xCD dir →
      ∃ t, Pushes entered s.pc t ∧ step s = .next { t with pc := dir }) ∧
    ((∀ n : BitVec 3, bytes ≠ [packOpcode 0b11 n 0b111]) → (∀ dir : Word, bytes ≠ opcodeAndWord 0xCD dir) →
      step s = .refused (.intrInstruction bytes))

/-- R239: TRAP is taken whatever INTE, the masks and ei_delay are, and clears INTE; the first RIM after it reports
INTE from before it, the next RIM the current INTE. -/
def Obligations.TrapReportsOldInte : Prop :=
  ∀ s : State, s.atBoundary.pins.reset = false → s.atBoundary.pins.trap = true →
    ∃ t u w, step s = .next t ∧ t.pc = 0x0024 ∧ t.ctl.inte = false ∧
      exec .rim t = .next u ∧ u.regs.a.getLsbD 3 = s.ctl.inte ∧
      exec .rim u = .next w ∧ w.regs.a.getLsbD 3 = u.ctl.inte

/-- R245: after EI INTE is 1 at once; the boundary that follows takes no maskable request, and the one after the next
instruction is open again; a DI right after EI leaves no window; TRAP is not delayed. -/
def Obligations.EiDelaysOneBoundary : Prop :=
  ∀ s : State, ∃ t, exec .ei s = .next t ∧ t.ctl.inte = true ∧
    (t.atBoundary.pins.trap = false →
      chooseRequest t.atBoundary.pins t.atBoundary.ctl t.ctl.eiDelay = none) ∧
    (t.atBoundary.pins.trap = true →
      chooseRequest t.atBoundary.pins t.atBoundary.ctl t.ctl.eiDelay = some .trap) ∧
    t.atBoundary.ctl.eiDelay = false ∧ t.atBoundary.ctl.inte = true ∧
    ∃ u, exec .di t.atBoundary = .next u ∧ u.ctl.inte = false

/-- R218, R246, R257: while halted, a step that takes no interrupt and no reset keeps the machine halted and changes
no register, flag or memory location; and a step ends a halt only by taking an interrupt or a reset. -/
def Obligations.HaltedUntilInterruptOrReset : Prop :=
  ∀ s : State, s.ctl.halted = true →
    (s.atBoundary.pins.reset = false →
      chooseRequest s.atBoundary.pins s.atBoundary.ctl s.ctl.eiDelay = none →
      ∃ t, step s = .next t ∧ t.ctl.halted = true ∧ t = { s with
        pins := t.pins, pinsAhead := t.pinsAhead, ctl := { s.ctl with r75 := t.ctl.r75, eiDelay := false } }) ∧
    (∀ t, step s = .next t → t.ctl.halted = false →
      s.atBoundary.pins.reset = true ∨
        chooseRequest s.atBoundary.pins s.atBoundary.ctl s.ctl.eiDelay ≠ none)

/-- R241: an edge on RST 7.5 sets the latch whatever the masks and INTE are; a step clears it only by taking the
RST 7.5 interrupt, by a SIM with A[4] = 1, or by reset. -/
def Obligations.Rst75Latch : Prop :=
  (∀ s : State, s.atBoundary.ctl.r75 = true ↔ (s.ctl.r75 = true ∨ s.atBoundary.pins.rst75edge = true)) ∧
  (∀ s t : State, step s = .next t → s.atBoundary.ctl.r75 = true → t.ctl.r75 = false →
    s.atBoundary.pins.reset = true ∨
    chooseRequest s.atBoundary.pins s.atBoundary.ctl s.ctl.eiDelay = some .rst75 ∨
    (s.regs.a.getLsbD 4 = true ∧ ∃ u, fetch s.atBoundary = .ok (.sim, u)))

/-- R260, R261, R221: the reset input gives the control state and PC their reset values from any state, halted or not,
and nothing is pushed: no cell gains a value, and the one event recorded is the fall of SOD, if SOD was 1. That the reset
input is sampled at boundaries is the model's choice (log 13), and so is where in the history the change of SOD stands
(log 14). -/
def Obligations.ResetInput : Prop :=
  ∀ s : State, s.atBoundary.pins.reset = true →
    ∃ t, step s = .next t ∧ t.pc = 0 ∧ t.ctl = State.reset.ctl ∧ t.params = s.params ∧
      t.history = (if s.ctl.sod then s.history ++ [.serialOut false] else s.history) ∧
      ∀ a v, t.cell a = some v → s.cell a = some v

/-! ## The whole machine -/

/-- R39, R216, R217, R238: every step keeps the invariant: memory in canonical form, and ei_delay 1 only with INTE 1. -/
def Obligations.StepKeepsInvariant : Prop :=
  ∀ s t : State, s.Inv → step s = .next t → t.Inv

/-- The reset state meets the invariant that every step keeps. -/
def Obligations.ResetMeetsInvariant : Prop := State.reset.Inv

/-- R261: the values the spec gives for reset; no maskable request can be taken at the first boundary, and TRAP can. -/
def Obligations.ResetValues : Prop :=
  let r := State.reset
  r.pc = 0 ∧ r.ctl.inte = false ∧ r.ctl.m75 = true ∧ r.ctl.m65 = true ∧ r.ctl.m55 = true ∧ r.ctl.r75 = false ∧
  r.ctl.sod = false ∧ r.ctl.halted = false ∧ r.ctl.eiDelay = false ∧ r.ctl.trapIe = false ∧
  r.ctl.trapPendingRim = false ∧ (∀ a, r.cell a = none) ∧
  ∀ p : Pins, chooseRequest p ({ r with pinsAhead := [p] } : State).atBoundary.ctl r.ctl.eiDelay =
    (if p.trap then some .trap else none)

/-- R230: every instruction completes, for every operand value, every address and every state. -/
def Obligations.EveryInstructionCompletes : Prop :=
  ∀ (i : Instr) (s : State), ∃ t, exec i s = .next t

/-- R56, R7: the event history is only appended to, so it stays in program order; and no step changes the open
parameters. -/
def Obligations.HistoryGrowsAndParametersStay : Prop :=
  ∀ s t : State, step s = .next t → (∃ events, t.history = s.history ++ events) ∧ t.params = s.params

/-- R234, R33, R34: INTE is set by EI only, and cleared by DI, reset and interrupt entry only; the masks are written
by SIM and reset only. -/
def Obligations.InterruptEnableWriters : Prop :=
  ∀ s t : State, step s = .next t →
    let ran (i : Instr) := s.executesNext ∧ ∃ u, fetch s.atBoundary = .ok (i, u)
    (s.ctl.inte = false → t.ctl.inte = true → ran .ei) ∧
    (s.ctl.inte = true → t.ctl.inte = false → ran .di ∨ s.atBoundary.pins.reset = true ∨
      chooseRequest s.atBoundary.pins s.atBoundary.ctl s.ctl.eiDelay ≠ none) ∧
    ((t.ctl.m75, t.ctl.m65, t.ctl.m55) ≠ (s.ctl.m75, s.ctl.m65, s.ctl.m55) →
      ran .sim ∨ s.atBoundary.pins.reset = true)

/-- R23: an instruction changes no 8-bit register that R23 does not list for it, and SP only if R23's SP line lists
it. -/
def Obligations.RegisterWriters : Prop :=
  ∀ (i : Instr) (s t : State), exec i s = .next t →
    (∀ r, writesReg i r = false → t.reg r = s.reg r) ∧ (writesSp i = false → t.sp = s.sp)

/-- R31: Z, S, P and AC change only by the instructions that R31 lists for them, CY only by those it lists for CY; DAA
writes no flag under `DAA_FLAGS = source`. -/
def Obligations.FlagWriters : Prop :=
  ∀ (i : Instr) (s t : State), exec i s = .next t → (i = .daa → s.params.daaFlags = .source) →
    (writesZspAc i = false →
      t.flags.z = s.flags.z ∧ t.flags.s = s.flags.s ∧ t.flags.p = s.flags.p ∧ t.flags.ac = s.flags.ac) ∧
    (writesCy i = false → t.flags.cy = s.flags.cy)

/-- R54: an instruction that the access table lists with no memory write leaves every byte of memory as it was. -/
def Obligations.MemoryWriters : Prop :=
  ∀ (i : Instr) (s t : State), exec i s = .next t → storesMemory i = false → ∀ a, t.cell a = s.cell a

/-- R57: no step, not even a reset, changes the content of ROM. -/
def Obligations.RomNeverChanges : Prop :=
  ∀ (s t : State) (a : Word), step s = .next t → s.kindAt a = .rom → t.cell a = s.cell a

/-- R150, R160: apart from DAA and the XOR and OR instructions, what an instruction does is the same under every
setting of `DAA_FLAGS` and `LOGIC_AC`. This compares two runs. For an instruction that draws a free value (a load of an
unwritten or unmapped byte, IN, PUSH PSW, RIM) the next states are equal because the model's free values are a function
of the shared counter `draws`: that is the model's choice (log 10, unsafe for a claim that compares two runs), and the
spec lets two draws differ. -/
def Obligations.FlagReadingsMatterOnlyWhereSaid : Prop :=
  ∀ (i : Instr) (s t : State) (daa logic : Reading), readsFlagReading i = false → exec i s = .next t →
    exec i (s.withReadings daa logic) = .next (t.withReadings daa logic)

/-- R63: a byte stored in RAM is what the very next fetch at that address reads: after STA to the address behind
itself, a step that executes runs the one-byte instruction just stored. -/
def Obligations.StoreSeenByNextFetch : Prop :=
  ∀ (s : State) (i : Instr), s.kindAt (s.pc + 3) = .ram → decode [s.regs.a] = .ok (i, []) →
    ∃ t, exec (.sta (s.pc + 3)) s = .next t ∧ (t.executesNext → step t = exec i t.atBoundary)
end

