-- ==== Sys2Proof/Laws/Bits.lean ====
section
/-! SUPPORT. The laws of bytes, words and flag computations: the model's own forms against the forms the statements
use. -/

namespace Sys2Proof.Machine

theorem hiByte_eq (v : Word) : hiByte v = (v >>> 8).setWidth 8 := by
  apply BitVec.eq_of_getLsbD_eq
  intro i hi
  simp [hiByte, hi]

theorem loByte_eq (v : Word) : loByte v = v.setWidth 8 := by
  apply BitVec.eq_of_getLsbD_eq
  intro i hi
  simp [loByte, hi]

/-- Bit by bit, two bytes joined: the low one below bit 8. -/
theorem getLsbD_joinBytes (hi lo : Byte) (i : Nat) :
    (joinBytes hi lo).getLsbD i = if i < 8 then lo.getLsbD i else hi.getLsbD (i - 8) :=
  BitVec.getLsbD_append

@[simp] theorem hiByte_joinBytes (hi lo : Byte) : hiByte (joinBytes hi lo) = hi := by
  apply BitVec.eq_of_getLsbD_eq
  intro i h
  simp [hiByte, getLsbD_joinBytes, h]

@[simp] theorem loByte_joinBytes (hi lo : Byte) : loByte (joinBytes hi lo) = lo := by
  apply BitVec.eq_of_getLsbD_eq
  intro i h
  simp [loByte, getLsbD_joinBytes, h]

/-- A word is its two halves. -/
@[simp] theorem joinBytes_hi_lo (v : Word) : joinBytes (hiByte v) (loByte v) = v := by
  apply BitVec.eq_of_getLsbD_eq
  intro i h
  simp only [getLsbD_joinBytes, hiByte, loByte, BitVec.getLsbD_extractLsb']
  by_cases h8 : i < 8
  · simp [h8]
  · have : i - 8 < 8 := by omega
    simp [h8, this, show 8 + (i - 8) = i by omega]

/-- The flags of a result are those of R29. -/
theorem flagsOf_eq (res : Byte) (ac cy : Bool) : flagsOf res ac cy = resultFlags res ac cy := by
  have hs : res.getLsbD 7 = decide (0x80 ≤ res.toNat) := by
    have := BitVec.msb_eq_decide res
    simpa [BitVec.msb_eq_getLsbD_last] using this
  have hz : (res == 0) = decide (res = 0) := by
    by_cases h : res = 0
    · simp [h]
    · rw [decide_eq_false h]
      exact beq_false_of_ne h
  have hp : parityEven res =
      decide (((List.range 8).filter fun i => res.getLsbD i).length % 2 = 0) := by
    simp only [parityEven, onesCount, List.countP_eq_length_filter]
    rfl
  simp only [flagsOf, resultFlags, hs, hz, hp]

theorem toNat_boolToBit (c : Bool) : (if c then (1 : Byte) else 0).toNat = c.toNat := by
  cases c <;> rfl

theorem boolToNat_eq (c : Bool) : c.toNat = if c then 1 else 0 := by
  cases c <;> rfl

/-- Addition to A is what the statements call it (R30). -/
theorem addToA_eq (v : Byte) (s : State) (cin : Bool) : addToA (v, s) cin = s.afterAdd v cin := by
  have hres : BitVec.ofNat 8 (s.regs.a.toNat + v.toNat + cin.toNat) =
      s.regs.a + v + (if cin then 1 else 0) := by
    apply BitVec.eq_of_toNat_eq
    simp only [BitVec.toNat_ofNat, BitVec.toNat_add, toNat_boolToBit]
    omega
  have hac : decide (0xF < loNibble s.regs.a + loNibble v + cin.toNat) =
      decide (16 ≤ s.regs.a.toNat % 16 + v.toNat % 16 + (if cin then 1 else 0)) := by
    simp only [loNibble, boolToNat_eq, decide_eq_decide]
    omega
  have hcy : decide (0xFF < s.regs.a.toNat + v.toNat + cin.toNat) =
      decide (256 ≤ s.regs.a.toNat + v.toNat + (if cin then 1 else 0)) := by
    simp only [boolToNat_eq, decide_eq_decide]
    omega
  simp only [addToA, add8, AluResult.flags, State.setA, State.setFlags, State.afterAdd, State.withA, flagsOf_eq,
    hres, hac, hcy]

/-- The flags of a subtraction are what the statements call them (R30). -/
theorem sub8_flags_eq (a v : Byte) (bin : Bool) : (sub8 a v bin).flags = subtractFlags a v bin := by
  have hbin : BitVec.ofNat 8 bin.toNat = (if bin then (1 : Byte) else 0) := by cases bin <;> rfl
  have hac : decide (0xF < loNibble a + loNibble (~~~v) + (1 - bin.toNat)) =
      decide (v.toNat % 16 + (if bin then 1 else 0) ≤ a.toNat % 16) := by
    have hv := v.isLt
    have hn : (~~~v).toNat = 255 - v.toNat := by simp [BitVec.toNat_not]
    simp only [loNibble, boolToNat_eq, decide_eq_decide, hn]
    cases bin <;> simp <;> omega
  have hcy : decide (a.toNat < v.toNat + bin.toNat) = decide (a.toNat < v.toNat + (if bin then 1 else 0)) := by
    simp only [boolToNat_eq]
  simp only [sub8, AluResult.flags, subtractFlags, flagsOf_eq, hbin, hac, hcy]

/-- Subtraction from A is what the statements call it (R30). -/
theorem subFromA_eq (v : Byte) (s : State) (bin : Bool) : subFromA (v, s) bin = s.afterSubtract v bin := by
  have hbin : BitVec.ofNat 8 bin.toNat = (if bin then (1 : Byte) else 0) := by cases bin <;> rfl
  simp only [subFromA, State.setA, State.setFlags, State.afterSubtract, State.withA, sub8_flags_eq]
  simp only [sub8, hbin]

/-- A compare writes the flags of the subtraction and nothing else (R151). -/
theorem compareWithA_eq (v : Byte) (s : State) :
    compareWithA (v, s) = { s with flags := subtractFlags s.regs.a v false } := by
  simp only [compareWithA, State.setFlags, sub8_flags_eq]

/-- A logical result is what the statements call it (R160). -/
theorem logicToA_eq (s : State) (res : Byte) (isAnd : Bool) :
    logicToA s res isAnd = s.afterLogic res (logicAcAfter s.params.logicAc isAnd) := by
  simp only [logicToA, State.setA, State.setFlags, State.afterLogic, State.withA, flagsOf_eq]

/-- The truth of a condition is that of the table of R86. -/
theorem condHolds_iff (cc : Cond) (f : Flags) : condHolds cc f = true ↔ ConditionHolds cc f := by
  cases cc <;> simp [condHolds, ConditionHolds]

/-- Bit by bit, a byte written out in bits. -/
theorem byteOfBits_bits (b7 b6 b5 b4 b3 b2 b1 b0 : Bool) :
    (byteOfBits b7 b6 b5 b4 b3 b2 b1 b0).getLsbD 7 = b7 ∧ (byteOfBits b7 b6 b5 b4 b3 b2 b1 b0).getLsbD 6 = b6 ∧
    (byteOfBits b7 b6 b5 b4 b3 b2 b1 b0).getLsbD 5 = b5 ∧ (byteOfBits b7 b6 b5 b4 b3 b2 b1 b0).getLsbD 4 = b4 ∧
    (byteOfBits b7 b6 b5 b4 b3 b2 b1 b0).getLsbD 3 = b3 ∧ (byteOfBits b7 b6 b5 b4 b3 b2 b1 b0).getLsbD 2 = b2 ∧
    (byteOfBits b7 b6 b5 b4 b3 b2 b1 b0).getLsbD 1 = b1 ∧ (byteOfBits b7 b6 b5 b4 b3 b2 b1 b0).getLsbD 0 = b0 := by
  revert b7 b6 b5 b4 b3 b2 b1 b0
  decide

/-- The flag byte shows the flags, whatever its free bits are (R32). -/
theorem flagByte_shows (f : Flags) (free : Byte) : ShowsFlags (flagByte f free) f := by
  have h := byteOfBits_bits f.s f.z (free.getLsbD 5) f.ac (free.getLsbD 3) f.p (free.getLsbD 1) f.cy
  exact ⟨h.1, h.2.1, h.2.2.2.1, h.2.2.2.2.2.1, h.2.2.2.2.2.2.2⟩

/-- A byte that shows the flags loads them back, whatever bits 5, 3 and 1 are (R32). -/
theorem flagsOfByte_of_shows (v : Byte) (f : Flags) (h : ShowsFlags v f) : flagsOfByte v = f := by
  obtain ⟨h7, h6, h4, h2, h0⟩ := h
  cases f
  simp_all [flagsOfByte]

end Sys2Proof.Machine
end

