-- ==== Sys2Proof/Laws/Memory.lean ====
section
/-! SUPPORT. The laws of memory: a byte written reads back, every other byte reads as before, and every operation keeps
the canonical form. -/

namespace Sys2Proof.Machine

@[simp] theorem Memory.get_nil (a : Nat) : Memory.get [] a = none := rfl

/-- The byte just written reads back. -/
@[simp] theorem Memory.get_set_same (m : Memory) (a : Nat) (v : Byte) : (m.set a v).get a = some v := by
  induction m with
  | nil => simp [Memory.set, Memory.get]
  | cons kw rest ih =>
    obtain ⟨k, w⟩ := kw
    by_cases h1 : a < k
    · simp [Memory.set, Memory.get, h1]
    · by_cases h2 : a = k
      · simp [Memory.set, Memory.get, h2]
      · simp [Memory.set, Memory.get, h1, h2, ih]

/-- Every other byte reads as before. -/
theorem Memory.get_set_other (m : Memory) (a b : Nat) (v : Byte) (h : b ≠ a) : (m.set a v).get b = m.get b := by
  induction m with
  | nil => simp [Memory.set, Memory.get, h, Memory.unlisted]
  | cons kw rest ih =>
    obtain ⟨k, w⟩ := kw
    by_cases h1 : a < k
    · simp [Memory.set, Memory.get, h1, h]
    · by_cases h2 : a = k
      · subst h2
        simp [Memory.set, Memory.get, h]
      · simp [Memory.set, Memory.get, h1, h2, ih]

/-- A write inside the address space keeps the canonical form from any lower bound that the address meets. -/
theorem Memory.wfFrom_set (m : Memory) (lo a : Nat) (v : Byte) (hlo : lo ≤ a) (ha : a < 65536)
    (h : Memory.wfFrom lo m = true) : Memory.wfFrom lo (m.set a v) = true := by
  induction m generalizing lo with
  | nil => simp [Memory.set, Memory.wfFrom, hlo, ha]
  | cons kw rest ih =>
    obtain ⟨k, w⟩ := kw
    simp only [Memory.wfFrom, Bool.and_eq_true, decide_eq_true_eq] at h
    obtain ⟨⟨hk, hk'⟩, hrest⟩ := h
    by_cases h1 : a < k
    · simp only [Memory.set, if_pos h1, Memory.wfFrom, Bool.and_eq_true, decide_eq_true_eq]
      exact ⟨⟨hlo, ha⟩, ⟨h1, hk'⟩, hrest⟩
    · by_cases h2 : a = k
      · subst h2
        simp [Memory.set, Memory.wfFrom, hlo, ha, hrest]
      · have h3 : k + 1 ≤ a := by omega
        simp [Memory.set, Memory.wfFrom, h1, h2, hk, hk', ih (k + 1) h3 hrest]

/-- A write keeps the canonical form. -/
theorem Memory.wf_set (m : Memory) (a : Nat) (v : Byte) (ha : a < 65536) (h : m.wf = true) :
    (m.set a v).wf = true :=
  Memory.wfFrom_set m 0 a v (Nat.zero_le a) ha h

/-- A lower bound may be lowered. -/
theorem Memory.wfFrom_mono (m : Memory) (lo lo' : Nat) (hle : lo' ≤ lo) (h : Memory.wfFrom lo m = true) :
    Memory.wfFrom lo' m = true := by
  cases m with
  | nil => rfl
  | cons kw rest =>
    simp only [Memory.wfFrom, Bool.and_eq_true, decide_eq_true_eq] at h ⊢
    exact ⟨⟨by omega, h.1.2⟩, h.2⟩

/-- Dropping cells keeps the canonical form from the same lower bound. -/
theorem Memory.wfFrom_filter (m : Memory) (p : Host.Cell → Bool) (lo : Nat) (h : Memory.wfFrom lo m = true) :
    Memory.wfFrom lo (m.filter p) = true := by
  induction m generalizing lo with
  | nil => rfl
  | cons kw rest ih =>
    obtain ⟨k, w⟩ := kw
    simp only [Memory.wfFrom, Bool.and_eq_true, decide_eq_true_eq] at h
    obtain ⟨⟨hk, hk'⟩, hrest⟩ := h
    have hkept := ih (k + 1) hrest
    by_cases hp : p (k, w) = true
    · simp [hp, Memory.wfFrom, hk, hk', hkept]
    · simp only [List.filter_cons, hp]
      exact Memory.wfFrom_mono _ _ _ (by omega) hkept

/-- Dropping cells keeps the canonical form. -/
theorem Memory.wf_filter (m : Memory) (p : Host.Cell → Bool) (h : m.wf = true) : Memory.wf (m.filter p) = true :=
  Memory.wfFrom_filter m p 0 h

/-- A cell that a filter keeps by its address alone reads as before. -/
theorem Memory.get_filter (m : Memory) (q : Nat → Bool) (a : Nat) (h : q a = true) :
    Memory.get (m.filter fun cell => q cell.1) a = m.get a := by
  induction m with
  | nil => rfl
  | cons kw rest ih =>
    obtain ⟨k, w⟩ := kw
    by_cases hk : a = k
    · subst hk
      simp [h, Memory.get]
    · by_cases hq : q k = true
      · simp [hq, Memory.get, hk, ih]
      · simp [hq, Memory.get, hk, ih]

/-- The memory of reset is in canonical form. -/
theorem Memory.wf_reset : State.reset.mem.wf = true := rfl

end Sys2Proof.Machine
end

