-- ==== Sys2Proof/Laws/State.lean ====
section
/-! SUPPORT. What each update of the state leaves in each field: one lemma for each field and update, true by `rfl`, so
that no proof unfolds a record update. -/

namespace Sys2Proof.Machine

/-! ### setReg -/

@[simp] theorem State.setReg_regs (s : State) (r : Reg8) (v : Byte) : (s.setReg r v).regs = s.regs.write r v := rfl
@[simp] theorem State.setReg_sp (s : State) (r : Reg8) (v : Byte) : (s.setReg r v).sp = s.sp := rfl
@[simp] theorem State.setReg_pc (s : State) (r : Reg8) (v : Byte) : (s.setReg r v).pc = s.pc := rfl
@[simp] theorem State.setReg_flags (s : State) (r : Reg8) (v : Byte) : (s.setReg r v).flags = s.flags := rfl
@[simp] theorem State.setReg_ctl (s : State) (r : Reg8) (v : Byte) : (s.setReg r v).ctl = s.ctl := rfl
@[simp] theorem State.setReg_mem (s : State) (r : Reg8) (v : Byte) : (s.setReg r v).mem = s.mem := rfl
@[simp] theorem State.setReg_pins (s : State) (r : Reg8) (v : Byte) : (s.setReg r v).pins = s.pins := rfl
@[simp] theorem State.setReg_pinsAhead (s : State) (r : Reg8) (v : Byte) : (s.setReg r v).pinsAhead = s.pinsAhead := rfl
@[simp] theorem State.setReg_ioReplies (s : State) (r : Reg8) (v : Byte) : (s.setReg r v).ioReplies = s.ioReplies := rfl
@[simp] theorem State.setReg_history (s : State) (r : Reg8) (v : Byte) : (s.setReg r v).history = s.history := rfl
@[simp] theorem State.setReg_draws (s : State) (r : Reg8) (v : Byte) : (s.setReg r v).draws = s.draws := rfl
@[simp] theorem State.setReg_params (s : State) (r : Reg8) (v : Byte) : (s.setReg r v).params = s.params := rfl

/-! ### setA -/

@[simp] theorem State.setA_regs (s : State) (v : Byte) : (s.setA v).regs = { s.regs with a := v } := rfl
@[simp] theorem State.setA_sp (s : State) (v : Byte) : (s.setA v).sp = s.sp := rfl
@[simp] theorem State.setA_pc (s : State) (v : Byte) : (s.setA v).pc = s.pc := rfl
@[simp] theorem State.setA_flags (s : State) (v : Byte) : (s.setA v).flags = s.flags := rfl
@[simp] theorem State.setA_ctl (s : State) (v : Byte) : (s.setA v).ctl = s.ctl := rfl
@[simp] theorem State.setA_mem (s : State) (v : Byte) : (s.setA v).mem = s.mem := rfl
@[simp] theorem State.setA_pins (s : State) (v : Byte) : (s.setA v).pins = s.pins := rfl
@[simp] theorem State.setA_pinsAhead (s : State) (v : Byte) : (s.setA v).pinsAhead = s.pinsAhead := rfl
@[simp] theorem State.setA_ioReplies (s : State) (v : Byte) : (s.setA v).ioReplies = s.ioReplies := rfl
@[simp] theorem State.setA_history (s : State) (v : Byte) : (s.setA v).history = s.history := rfl
@[simp] theorem State.setA_draws (s : State) (v : Byte) : (s.setA v).draws = s.draws := rfl
@[simp] theorem State.setA_params (s : State) (v : Byte) : (s.setA v).params = s.params := rfl

/-! ### setFlags -/

@[simp] theorem State.setFlags_regs (s : State) (f : Flags) : (s.setFlags f).regs = s.regs := rfl
@[simp] theorem State.setFlags_sp (s : State) (f : Flags) : (s.setFlags f).sp = s.sp := rfl
@[simp] theorem State.setFlags_pc (s : State) (f : Flags) : (s.setFlags f).pc = s.pc := rfl
@[simp] theorem State.setFlags_flags (s : State) (f : Flags) : (s.setFlags f).flags = f := rfl
@[simp] theorem State.setFlags_ctl (s : State) (f : Flags) : (s.setFlags f).ctl = s.ctl := rfl
@[simp] theorem State.setFlags_mem (s : State) (f : Flags) : (s.setFlags f).mem = s.mem := rfl
@[simp] theorem State.setFlags_pins (s : State) (f : Flags) : (s.setFlags f).pins = s.pins := rfl
@[simp] theorem State.setFlags_pinsAhead (s : State) (f : Flags) : (s.setFlags f).pinsAhead = s.pinsAhead := rfl
@[simp] theorem State.setFlags_ioReplies (s : State) (f : Flags) : (s.setFlags f).ioReplies = s.ioReplies := rfl
@[simp] theorem State.setFlags_history (s : State) (f : Flags) : (s.setFlags f).history = s.history := rfl
@[simp] theorem State.setFlags_draws (s : State) (f : Flags) : (s.setFlags f).draws = s.draws := rfl
@[simp] theorem State.setFlags_params (s : State) (f : Flags) : (s.setFlags f).params = s.params := rfl

/-! ### jump -/

@[simp] theorem State.jump_regs (s : State) (t : Word) : (s.jump t).regs = s.regs := rfl
@[simp] theorem State.jump_sp (s : State) (t : Word) : (s.jump t).sp = s.sp := rfl
@[simp] theorem State.jump_pc (s : State) (t : Word) : (s.jump t).pc = t := rfl
@[simp] theorem State.jump_flags (s : State) (t : Word) : (s.jump t).flags = s.flags := rfl
@[simp] theorem State.jump_ctl (s : State) (t : Word) : (s.jump t).ctl = s.ctl := rfl
@[simp] theorem State.jump_mem (s : State) (t : Word) : (s.jump t).mem = s.mem := rfl
@[simp] theorem State.jump_pins (s : State) (t : Word) : (s.jump t).pins = s.pins := rfl
@[simp] theorem State.jump_pinsAhead (s : State) (t : Word) : (s.jump t).pinsAhead = s.pinsAhead := rfl
@[simp] theorem State.jump_ioReplies (s : State) (t : Word) : (s.jump t).ioReplies = s.ioReplies := rfl
@[simp] theorem State.jump_history (s : State) (t : Word) : (s.jump t).history = s.history := rfl
@[simp] theorem State.jump_draws (s : State) (t : Word) : (s.jump t).draws = s.draws := rfl
@[simp] theorem State.jump_params (s : State) (t : Word) : (s.jump t).params = s.params := rfl

/-! ### advance -/

@[simp] theorem State.advance_regs (s : State) (n : Nat) : (s.advance n).regs = s.regs := rfl
@[simp] theorem State.advance_sp (s : State) (n : Nat) : (s.advance n).sp = s.sp := rfl
@[simp] theorem State.advance_pc (s : State) (n : Nat) : (s.advance n).pc = s.pc + BitVec.ofNat 16 n := rfl
@[simp] theorem State.advance_flags (s : State) (n : Nat) : (s.advance n).flags = s.flags := rfl
@[simp] theorem State.advance_ctl (s : State) (n : Nat) : (s.advance n).ctl = s.ctl := rfl
@[simp] theorem State.advance_mem (s : State) (n : Nat) : (s.advance n).mem = s.mem := rfl
@[simp] theorem State.advance_pins (s : State) (n : Nat) : (s.advance n).pins = s.pins := rfl
@[simp] theorem State.advance_pinsAhead (s : State) (n : Nat) : (s.advance n).pinsAhead = s.pinsAhead := rfl
@[simp] theorem State.advance_ioReplies (s : State) (n : Nat) : (s.advance n).ioReplies = s.ioReplies := rfl
@[simp] theorem State.advance_history (s : State) (n : Nat) : (s.advance n).history = s.history := rfl
@[simp] theorem State.advance_draws (s : State) (n : Nat) : (s.advance n).draws = s.draws := rfl
@[simp] theorem State.advance_params (s : State) (n : Nat) : (s.advance n).params = s.params := rfl

/-! ### record -/

@[simp] theorem State.record_regs (s : State) (e : Event) : (s.record e).regs = s.regs := rfl
@[simp] theorem State.record_sp (s : State) (e : Event) : (s.record e).sp = s.sp := rfl
@[simp] theorem State.record_pc (s : State) (e : Event) : (s.record e).pc = s.pc := rfl
@[simp] theorem State.record_flags (s : State) (e : Event) : (s.record e).flags = s.flags := rfl
@[simp] theorem State.record_ctl (s : State) (e : Event) : (s.record e).ctl = s.ctl := rfl
@[simp] theorem State.record_mem (s : State) (e : Event) : (s.record e).mem = s.mem := rfl
@[simp] theorem State.record_pins (s : State) (e : Event) : (s.record e).pins = s.pins := rfl
@[simp] theorem State.record_pinsAhead (s : State) (e : Event) : (s.record e).pinsAhead = s.pinsAhead := rfl
@[simp] theorem State.record_ioReplies (s : State) (e : Event) : (s.record e).ioReplies = s.ioReplies := rfl
@[simp] theorem State.record_history (s : State) (e : Event) : (s.record e).history = s.history ++ [e] := rfl
@[simp] theorem State.record_draws (s : State) (e : Event) : (s.record e).draws = s.draws := rfl
@[simp] theorem State.record_params (s : State) (e : Event) : (s.record e).params = s.params := rfl

/-! ### recordSod -/

@[simp] theorem State.recordSod_regs (s : State) (old : Bool) : (s.recordSod old).regs = s.regs := rfl
@[simp] theorem State.recordSod_sp (s : State) (old : Bool) : (s.recordSod old).sp = s.sp := rfl
@[simp] theorem State.recordSod_pc (s : State) (old : Bool) : (s.recordSod old).pc = s.pc := rfl
@[simp] theorem State.recordSod_flags (s : State) (old : Bool) : (s.recordSod old).flags = s.flags := rfl
@[simp] theorem State.recordSod_ctl (s : State) (old : Bool) : (s.recordSod old).ctl = s.ctl := rfl
@[simp] theorem State.recordSod_mem (s : State) (old : Bool) : (s.recordSod old).mem = s.mem := rfl
@[simp] theorem State.recordSod_pins (s : State) (old : Bool) : (s.recordSod old).pins = s.pins := rfl
@[simp] theorem State.recordSod_pinsAhead (s : State) (old : Bool) : (s.recordSod old).pinsAhead = s.pinsAhead := rfl
@[simp] theorem State.recordSod_ioReplies (s : State) (old : Bool) : (s.recordSod old).ioReplies = s.ioReplies := rfl
@[simp] theorem State.recordSod_draws (s : State) (old : Bool) : (s.recordSod old).draws = s.draws := rfl
@[simp] theorem State.recordSod_params (s : State) (old : Bool) : (s.recordSod old).params = s.params := rfl
@[simp] theorem State.recordSod_history (s : State) (old : Bool) : (s.recordSod old).history =
    if s.ctl.sod = old then s.history else s.history ++ [.serialOut s.ctl.sod] := rfl

/-! ### saveTrapIe -/

@[simp] theorem State.saveTrapIe_regs (s : State) : s.saveTrapIe.regs = s.regs := rfl
@[simp] theorem State.saveTrapIe_sp (s : State) : s.saveTrapIe.sp = s.sp := rfl
@[simp] theorem State.saveTrapIe_pc (s : State) : s.saveTrapIe.pc = s.pc := rfl
@[simp] theorem State.saveTrapIe_flags (s : State) : s.saveTrapIe.flags = s.flags := rfl
@[simp] theorem State.saveTrapIe_ctl (s : State) : s.saveTrapIe.ctl = { s.ctl with trapIe := s.ctl.inte, trapPendingRim := true } := rfl
@[simp] theorem State.saveTrapIe_mem (s : State) : s.saveTrapIe.mem = s.mem := rfl
@[simp] theorem State.saveTrapIe_pins (s : State) : s.saveTrapIe.pins = s.pins := rfl
@[simp] theorem State.saveTrapIe_pinsAhead (s : State) : s.saveTrapIe.pinsAhead = s.pinsAhead := rfl
@[simp] theorem State.saveTrapIe_ioReplies (s : State) : s.saveTrapIe.ioReplies = s.ioReplies := rfl
@[simp] theorem State.saveTrapIe_history (s : State) : s.saveTrapIe.history = s.history := rfl
@[simp] theorem State.saveTrapIe_draws (s : State) : s.saveTrapIe.draws = s.draws := rfl
@[simp] theorem State.saveTrapIe_params (s : State) : s.saveTrapIe.params = s.params := rfl

/-! ### clearR75 -/

@[simp] theorem State.clearR75_regs (s : State) : s.clearR75.regs = s.regs := rfl
@[simp] theorem State.clearR75_sp (s : State) : s.clearR75.sp = s.sp := rfl
@[simp] theorem State.clearR75_pc (s : State) : s.clearR75.pc = s.pc := rfl
@[simp] theorem State.clearR75_flags (s : State) : s.clearR75.flags = s.flags := rfl
@[simp] theorem State.clearR75_ctl (s : State) : s.clearR75.ctl = { s.ctl with r75 := false } := rfl
@[simp] theorem State.clearR75_mem (s : State) : s.clearR75.mem = s.mem := rfl
@[simp] theorem State.clearR75_pins (s : State) : s.clearR75.pins = s.pins := rfl
@[simp] theorem State.clearR75_pinsAhead (s : State) : s.clearR75.pinsAhead = s.pinsAhead := rfl
@[simp] theorem State.clearR75_ioReplies (s : State) : s.clearR75.ioReplies = s.ioReplies := rfl
@[simp] theorem State.clearR75_history (s : State) : s.clearR75.history = s.history := rfl
@[simp] theorem State.clearR75_draws (s : State) : s.clearR75.draws = s.draws := rfl
@[simp] theorem State.clearR75_params (s : State) : s.clearR75.params = s.params := rfl

/-! ### atBoundary -/

@[simp] theorem State.atBoundary_regs (s : State) : s.atBoundary.regs = s.regs := rfl
@[simp] theorem State.atBoundary_sp (s : State) : s.atBoundary.sp = s.sp := rfl
@[simp] theorem State.atBoundary_pc (s : State) : s.atBoundary.pc = s.pc := rfl
@[simp] theorem State.atBoundary_flags (s : State) : s.atBoundary.flags = s.flags := rfl
@[simp] theorem State.atBoundary_ctl (s : State) : s.atBoundary.ctl = { s.ctl with r75 := s.ctl.r75 || (s.pinsAhead.headD Pins.idle).rst75edge, eiDelay := false } := rfl
@[simp] theorem State.atBoundary_mem (s : State) : s.atBoundary.mem = s.mem := rfl
@[simp] theorem State.atBoundary_pins (s : State) : s.atBoundary.pins = s.pinsAhead.headD Pins.idle := rfl
@[simp] theorem State.atBoundary_pinsAhead (s : State) : s.atBoundary.pinsAhead = s.pinsAhead.tail := rfl
@[simp] theorem State.atBoundary_ioReplies (s : State) : s.atBoundary.ioReplies = s.ioReplies := rfl
@[simp] theorem State.atBoundary_history (s : State) : s.atBoundary.history = s.history := rfl
@[simp] theorem State.atBoundary_draws (s : State) : s.atBoundary.draws = s.draws := rfl
@[simp] theorem State.atBoundary_params (s : State) : s.atBoundary.params = s.params := rfl

/-! ### draw8 and draw1 -/

@[simp] theorem State.draw8_fst (s : State) : s.draw8.1 = Config.freeByte s.draws := rfl
@[simp] theorem State.draw8_regs (s : State) : s.draw8.2.regs = s.regs := rfl
@[simp] theorem State.draw8_sp (s : State) : s.draw8.2.sp = s.sp := rfl
@[simp] theorem State.draw8_pc (s : State) : s.draw8.2.pc = s.pc := rfl
@[simp] theorem State.draw8_flags (s : State) : s.draw8.2.flags = s.flags := rfl
@[simp] theorem State.draw8_ctl (s : State) : s.draw8.2.ctl = s.ctl := rfl
@[simp] theorem State.draw8_mem (s : State) : s.draw8.2.mem = s.mem := rfl
@[simp] theorem State.draw8_pins (s : State) : s.draw8.2.pins = s.pins := rfl
@[simp] theorem State.draw8_pinsAhead (s : State) : s.draw8.2.pinsAhead = s.pinsAhead := rfl
@[simp] theorem State.draw8_ioReplies (s : State) : s.draw8.2.ioReplies = s.ioReplies := rfl
@[simp] theorem State.draw8_history (s : State) : s.draw8.2.history = s.history := rfl
@[simp] theorem State.draw8_draws (s : State) : s.draw8.2.draws = s.draws + 1 := rfl
@[simp] theorem State.draw8_params (s : State) : s.draw8.2.params = s.params := rfl

@[simp] theorem State.draw1_fst (s : State) : s.draw1.1 = Config.freeBit s.draws := rfl
@[simp] theorem State.draw1_regs (s : State) : s.draw1.2.regs = s.regs := rfl
@[simp] theorem State.draw1_sp (s : State) : s.draw1.2.sp = s.sp := rfl
@[simp] theorem State.draw1_pc (s : State) : s.draw1.2.pc = s.pc := rfl
@[simp] theorem State.draw1_flags (s : State) : s.draw1.2.flags = s.flags := rfl
@[simp] theorem State.draw1_ctl (s : State) : s.draw1.2.ctl = s.ctl := rfl
@[simp] theorem State.draw1_mem (s : State) : s.draw1.2.mem = s.mem := rfl
@[simp] theorem State.draw1_pins (s : State) : s.draw1.2.pins = s.pins := rfl
@[simp] theorem State.draw1_pinsAhead (s : State) : s.draw1.2.pinsAhead = s.pinsAhead := rfl
@[simp] theorem State.draw1_ioReplies (s : State) : s.draw1.2.ioReplies = s.ioReplies := rfl
@[simp] theorem State.draw1_history (s : State) : s.draw1.2.history = s.history := rfl
@[simp] theorem State.draw1_draws (s : State) : s.draw1.2.draws = s.draws + 1 := rfl
@[simp] theorem State.draw1_params (s : State) : s.draw1.2.params = s.params := rfl

/-! ### setPair -/

@[simp] theorem State.setPair_pc (s : State) (rp : RegPair) (v : Word) : (s.setPair rp v).pc = s.pc := by cases rp <;> rfl
@[simp] theorem State.setPair_flags (s : State) (rp : RegPair) (v : Word) : (s.setPair rp v).flags = s.flags := by cases rp <;> rfl
@[simp] theorem State.setPair_ctl (s : State) (rp : RegPair) (v : Word) : (s.setPair rp v).ctl = s.ctl := by cases rp <;> rfl
@[simp] theorem State.setPair_mem (s : State) (rp : RegPair) (v : Word) : (s.setPair rp v).mem = s.mem := by cases rp <;> rfl
@[simp] theorem State.setPair_pins (s : State) (rp : RegPair) (v : Word) : (s.setPair rp v).pins = s.pins := by cases rp <;> rfl
@[simp] theorem State.setPair_pinsAhead (s : State) (rp : RegPair) (v : Word) : (s.setPair rp v).pinsAhead = s.pinsAhead := by cases rp <;> rfl
@[simp] theorem State.setPair_ioReplies (s : State) (rp : RegPair) (v : Word) : (s.setPair rp v).ioReplies = s.ioReplies := by cases rp <;> rfl
@[simp] theorem State.setPair_history (s : State) (rp : RegPair) (v : Word) : (s.setPair rp v).history = s.history := by cases rp <;> rfl
@[simp] theorem State.setPair_draws (s : State) (rp : RegPair) (v : Word) : (s.setPair rp v).draws = s.draws := by cases rp <;> rfl
@[simp] theorem State.setPair_params (s : State) (rp : RegPair) (v : Word) : (s.setPair rp v).params = s.params := by cases rp <;> rfl
@[simp] theorem State.setPair_sp_sp (s : State) (v : Word) : (s.setPair .sp v).sp = v := rfl
@[simp] theorem State.setPair_sp_regs (s : State) (v : Word) : (s.setPair .sp v).regs = s.regs := rfl
theorem State.setPair_sp_of_ne (s : State) (rp : RegPair) (v : Word) (h : rp ≠ .sp) : (s.setPair rp v).sp = s.sp := by cases rp <;> first | rfl | exact absurd rfl h

/-! ### onReset -/

@[simp] theorem State.onReset_mem (s : State) : s.onReset.mem =
    s.mem.filter fun cell => kindIn s.params.memMap (BitVec.ofNat 16 cell.1) == .rom := rfl
@[simp] theorem State.onReset_pc (s : State) : s.onReset.pc = 0 := rfl
@[simp] theorem State.onReset_ctl (s : State) : s.onReset.ctl = resetControl := rfl
@[simp] theorem State.onReset_pins (s : State) : s.onReset.pins = s.pins := rfl
@[simp] theorem State.onReset_pinsAhead (s : State) : s.onReset.pinsAhead = s.pinsAhead := rfl
@[simp] theorem State.onReset_ioReplies (s : State) : s.onReset.ioReplies = s.ioReplies := rfl
@[simp] theorem State.onReset_history (s : State) :
    s.onReset.history = if s.ctl.sod then s.history ++ [.serialOut false] else s.history := by
  cases h : s.ctl.sod <;> simp [State.onReset, State.recordSod, State.forceReset, resetControl, h]
@[simp] theorem State.onReset_draws (s : State) : s.onReset.draws = s.draws + 10 := rfl
@[simp] theorem State.onReset_params (s : State) : s.onReset.params = s.params := rfl

/-! ### registers read back -/

/-- A register reads what was written to it. -/
@[simp] theorem State.reg_setReg_same (s : State) (r : Reg8) (v : Byte) : (s.setReg r v).reg r = v := by
  cases r <;> rfl

/-- Every other register reads as before. -/
theorem State.reg_setReg_other (s : State) (r x : Reg8) (v : Byte) (h : x ≠ r) : (s.setReg r v).reg x = s.reg x := by
  cases r <;> cases x <;> first | rfl | exact absurd rfl h

@[simp] theorem State.reg_a (s : State) : s.reg .a = s.regs.a := rfl
@[simp] theorem State.reg_b (s : State) : s.reg .b = s.regs.b := rfl
@[simp] theorem State.reg_c (s : State) : s.reg .c = s.regs.c := rfl
@[simp] theorem State.reg_d (s : State) : s.reg .d = s.regs.d := rfl
@[simp] theorem State.reg_e (s : State) : s.reg .e = s.regs.e := rfl
@[simp] theorem State.reg_h (s : State) : s.reg .h = s.regs.h := rfl
@[simp] theorem State.reg_l (s : State) : s.reg .l = s.regs.l := rfl

/-- A register's value depends on the registers alone. -/
theorem State.reg_congr {s t : State} (h : t.regs = s.regs) (r : Reg8) : t.reg r = s.reg r := by
  cases r <;> simp [h]

/-- A pair's value depends on the registers and SP alone. -/
theorem State.pair_congr {s t : State} (h : t.regs = s.regs) (h' : t.sp = s.sp) (rp : RegPair) :
    t.pair rp = s.pair rp := by
  cases rp <;> simp [State.pair, State.hl, h, h']

/-- The kind of an address depends on the parameters alone. -/
theorem State.kindAt_congr {s t : State} (h : t.params = s.params) (a : Word) : t.kindAt a = s.kindAt a := by
  simp [State.kindAt, h]

/-- The content of a cell depends on the memory alone. -/
theorem State.cell_congr {s t : State} (h : t.mem = s.mem) (a : Word) : t.cell a = s.cell a := by
  simp [State.cell, h]

end Sys2Proof.Machine
end

