-- ==== Sys2Proof/Laws/Ops.lean ====
section
/-! SUPPORT. What each shared operation can do, said once: reads, stores, the stack, interrupt entry, the boundary, the
fetch. -/

namespace Sys2Proof.Machine

/-! ## The environment and the reads -/

/-- The environment's answer is one of the two of R56. -/
theorem envReply_answers (s : State) : EnvAnswers s s.envReply.1 s.envReply.2 := by
  unfold EnvAnswers State.envReply
  cases s.ioReplies with
  | nil => exact ⟨rfl, rfl⟩
  | cons w rest => exact ⟨rfl, rfl⟩

/-- The read of one byte does what R57 says, for every kind of address. -/
theorem read8_loads (s : State) (a : Word) : Loads s a (s.read8 a).1 (s.read8 a).2 := by
  unfold Loads State.read8
  cases s.kindAt a with
  | ram | rom =>
    simp only [State.readCell]
    cases s.cell a with
    | none => exact ⟨rfl, rfl⟩
    | some w => exact ⟨rfl, rfl⟩
  | unmapped => exact ⟨rfl, rfl⟩
  | device => exact ⟨s.envReply.2, envReply_answers s, rfl⟩

/-- A cell that holds a value gives it, and the state stays. -/
theorem read8_of_holds (s : State) (a : Word) (v : Byte) (h : Holds s a v) : s.read8 a = (v, s) := by
  obtain ⟨hk | hk, hc⟩ := h <;> simp [State.read8, State.readCell, hk, hc]

/-- All that a read can change: the count of draws, the replies still to come, and the history. -/
theorem Loads.frame {s t : State} {a : Word} {v : Byte} (h : Loads s a v t) :
    t = { s with draws := t.draws, ioReplies := t.ioReplies, history := t.history } := by
  unfold Loads at h
  split at h
  · split at h
    · rw [h.2]
    · rw [h.2]
  · split at h
    · rw [h.2]
    · rw [h.2]
  · rw [h.2]
  · obtain ⟨u, hu, ht⟩ := h
    unfold EnvAnswers at hu
    split at hu <;> rw [ht, hu.2]

@[simp] theorem read8_regs (s : State) (a : Word) : (s.read8 a).2.regs = s.regs := by
  rw [(read8_loads s a).frame]
@[simp] theorem read8_sp (s : State) (a : Word) : (s.read8 a).2.sp = s.sp := by rw [(read8_loads s a).frame]
@[simp] theorem read8_pc (s : State) (a : Word) : (s.read8 a).2.pc = s.pc := by rw [(read8_loads s a).frame]
@[simp] theorem read8_flags (s : State) (a : Word) : (s.read8 a).2.flags = s.flags := by
  rw [(read8_loads s a).frame]
@[simp] theorem read8_ctl (s : State) (a : Word) : (s.read8 a).2.ctl = s.ctl := by rw [(read8_loads s a).frame]
@[simp] theorem read8_mem (s : State) (a : Word) : (s.read8 a).2.mem = s.mem := by rw [(read8_loads s a).frame]
@[simp] theorem read8_pins (s : State) (a : Word) : (s.read8 a).2.pins = s.pins := by rw [(read8_loads s a).frame]
@[simp] theorem read8_pinsAhead (s : State) (a : Word) : (s.read8 a).2.pinsAhead = s.pinsAhead := by
  rw [(read8_loads s a).frame]
@[simp] theorem read8_params (s : State) (a : Word) : (s.read8 a).2.params = s.params := by
  rw [(read8_loads s a).frame]

/-- The read of two bytes does what R50 and R52 say. -/
theorem read16_loadsWord (s : State) (a : Word) : LoadsWord s a (s.read16 a).1 (s.read16 a).2 :=
  ⟨_, _, _, read8_loads s a, read8_loads (s.read8 a).2 (a + 1), rfl⟩

@[simp] theorem read16_regs (s : State) (a : Word) : (s.read16 a).2.regs = s.regs := by simp [State.read16]
@[simp] theorem read16_sp (s : State) (a : Word) : (s.read16 a).2.sp = s.sp := by simp [State.read16]
@[simp] theorem read16_pc (s : State) (a : Word) : (s.read16 a).2.pc = s.pc := by simp [State.read16]
@[simp] theorem read16_flags (s : State) (a : Word) : (s.read16 a).2.flags = s.flags := by simp [State.read16]
@[simp] theorem read16_ctl (s : State) (a : Word) : (s.read16 a).2.ctl = s.ctl := by simp [State.read16]
@[simp] theorem read16_mem (s : State) (a : Word) : (s.read16 a).2.mem = s.mem := by simp [State.read16]
@[simp] theorem read16_pins (s : State) (a : Word) : (s.read16 a).2.pins = s.pins := by simp [State.read16]
@[simp] theorem read16_pinsAhead (s : State) (a : Word) : (s.read16 a).2.pinsAhead = s.pinsAhead := by
  simp [State.read16]
@[simp] theorem read16_params (s : State) (a : Word) : (s.read16 a).2.params = s.params := by simp [State.read16]

/-! ## Stores -/

/-- The store of one byte does what R57 says, for every kind of address. -/
theorem write8_stores (s : State) (a : Word) (v : Byte) : Stores s a v (s.write8 a v) := by
  unfold Stores State.write8
  cases hk : s.kindAt a with
  | ram =>
    refine ⟨?_, fun b hb => ?_, rfl⟩
    · simp [State.cell]
    · have hne : b.toNat ≠ a.toNat := fun h => hb (BitVec.eq_of_toNat_eq h)
      simp [State.cell, Memory.get_set_other _ _ _ _ hne]
  | rom => rfl
  | unmapped => rfl
  | device => rfl

/-- All that a store can change: memory and the history. -/
theorem Stores.frame {s t : State} {a : Word} {v : Byte} (h : Stores s a v t) :
    t = { s with mem := t.mem, history := t.history } := by
  unfold Stores at h
  split at h
  · rw [h.2.2]
  · rw [h]
  · rw [h]
  · rw [h]

@[simp] theorem write8_regs (s : State) (a : Word) (v : Byte) : (s.write8 a v).regs = s.regs := by
  rw [(write8_stores s a v).frame]
@[simp] theorem write8_sp (s : State) (a : Word) (v : Byte) : (s.write8 a v).sp = s.sp := by
  rw [(write8_stores s a v).frame]
@[simp] theorem write8_pc (s : State) (a : Word) (v : Byte) : (s.write8 a v).pc = s.pc := by
  rw [(write8_stores s a v).frame]
@[simp] theorem write8_flags (s : State) (a : Word) (v : Byte) : (s.write8 a v).flags = s.flags := by
  rw [(write8_stores s a v).frame]
@[simp] theorem write8_ctl (s : State) (a : Word) (v : Byte) : (s.write8 a v).ctl = s.ctl := by
  rw [(write8_stores s a v).frame]
@[simp] theorem write8_pins (s : State) (a : Word) (v : Byte) : (s.write8 a v).pins = s.pins := by
  rw [(write8_stores s a v).frame]
@[simp] theorem write8_pinsAhead (s : State) (a : Word) (v : Byte) : (s.write8 a v).pinsAhead = s.pinsAhead := by
  rw [(write8_stores s a v).frame]
@[simp] theorem write8_ioReplies (s : State) (a : Word) (v : Byte) : (s.write8 a v).ioReplies = s.ioReplies := by
  rw [(write8_stores s a v).frame]
@[simp] theorem write8_draws (s : State) (a : Word) (v : Byte) : (s.write8 a v).draws = s.draws := by
  rw [(write8_stores s a v).frame]
@[simp] theorem write8_params (s : State) (a : Word) (v : Byte) : (s.write8 a v).params = s.params := by
  rw [(write8_stores s a v).frame]

/-- A store keeps the canonical form of memory. -/
theorem write8_mem_wf (s : State) (a : Word) (v : Byte) (h : s.mem.wf = true) : (s.write8 a v).mem.wf = true := by
  unfold State.write8
  cases s.kindAt a with
  | ram => exact Memory.wf_set _ _ _ a.isLt h
  | rom | unmapped | device => exact h

/-- A store changes no cell that is not RAM. -/
theorem write8_cell_of_not_ram (s : State) (a b : Word) (v : Byte) (h : s.kindAt b ≠ .ram) :
    (s.write8 a v).cell b = s.cell b := by
  have hs := write8_stores s a v
  unfold Stores at hs
  split at hs
  · next hk =>
    by_cases hb : b = a
    · exact absurd (hb ▸ hk) h
    · exact hs.2.1 b hb
  · rw [hs]
  · rw [hs]
  · rw [hs]; rfl

/-! ## The stack -/

/-- `push16` does what R185 says. -/
theorem push16_pushes (s : State) (v : Word) : Pushes s v (s.push16 v) := by
  refine ⟨s.write8 (s.sp - 1) (hiByte v), (s.write8 (s.sp - 1) (hiByte v)).write8 (s.sp - 2) (loByte v), ?_, ?_, rfl⟩
  · rw [← hiByte_eq]; exact write8_stores _ _ _
  · rw [← loByte_eq]; exact write8_stores _ _ _

/-- `pop16` does what R185 says. -/
theorem pop16_pops (s : State) : Pops s s.pop16.1 s.pop16.2 :=
  ⟨(s.read16 s.sp).2, read16_loadsWord s s.sp, rfl⟩

@[simp] theorem push16_regs (s : State) (v : Word) : (s.push16 v).regs = s.regs := by simp [State.push16]
@[simp] theorem push16_sp (s : State) (v : Word) : (s.push16 v).sp = s.sp - 2 := rfl
@[simp] theorem push16_pc (s : State) (v : Word) : (s.push16 v).pc = s.pc := by simp [State.push16]
@[simp] theorem push16_flags (s : State) (v : Word) : (s.push16 v).flags = s.flags := by simp [State.push16]
@[simp] theorem push16_ctl (s : State) (v : Word) : (s.push16 v).ctl = s.ctl := by simp [State.push16]
@[simp] theorem push16_params (s : State) (v : Word) : (s.push16 v).params = s.params := by simp [State.push16]
@[simp] theorem push16_draws (s : State) (v : Word) : (s.push16 v).draws = s.draws := by simp [State.push16]

/-- A push keeps the canonical form of memory. -/
theorem push16_mem_wf (s : State) (v : Word) (h : s.mem.wf = true) : (s.push16 v).mem.wf = true :=
  write8_mem_wf _ _ _ (write8_mem_wf _ _ _ h)

@[simp] theorem pop16_regs (s : State) : s.pop16.2.regs = s.regs := by simp [State.pop16]
@[simp] theorem pop16_sp (s : State) : s.pop16.2.sp = s.sp + 2 := rfl
@[simp] theorem pop16_pc (s : State) : s.pop16.2.pc = s.pc := by simp [State.pop16]
@[simp] theorem pop16_flags (s : State) : s.pop16.2.flags = s.flags := by simp [State.pop16]
@[simp] theorem pop16_ctl (s : State) : s.pop16.2.ctl = s.ctl := by simp [State.pop16]
@[simp] theorem pop16_mem (s : State) : s.pop16.2.mem = s.mem := by simp [State.pop16]
@[simp] theorem pop16_params (s : State) : s.pop16.2.params = s.params := by simp [State.pop16]

/-! ## Interrupt entry and the boundary -/

/-- Interrupt entry: the halt ends, INTE is 0, PC is pushed and then at the target (R238). -/
theorem enterInterrupt_spec (s : State) (target : Word) :
    ∃ t, Pushes { s with ctl := { s.ctl with halted := false, inte := false } } s.pc t ∧
      s.enterInterrupt target = { t with pc := target } :=
  ⟨_, push16_pushes _ _, rfl⟩

@[simp] theorem enterInterrupt_ctl (s : State) (target : Word) :
    (s.enterInterrupt target).ctl = { s.ctl with halted := false, inte := false } := by
  simp [State.enterInterrupt, State.callTo]
@[simp] theorem enterInterrupt_params (s : State) (target : Word) :
    (s.enterInterrupt target).params = s.params := by
  simp [State.enterInterrupt, State.callTo]
@[simp] theorem enterInterrupt_regs (s : State) (target : Word) : (s.enterInterrupt target).regs = s.regs := by
  simp [State.enterInterrupt, State.callTo]
@[simp] theorem enterInterrupt_flags (s : State) (target : Word) : (s.enterInterrupt target).flags = s.flags := by
  simp [State.enterInterrupt, State.callTo]
@[simp] theorem enterInterrupt_pc (s : State) (target : Word) : (s.enterInterrupt target).pc = target := rfl

/-- If a request is taken and the machine goes on, the interrupt was entered from a state that differs from the
boundary's in R7_5, trap_ie and trap_pending_rim at most. -/
theorem takeInterrupt_next {k : Source} {s t : State} (h : takeInterrupt k s = .next t) :
    ∃ c target, t = State.enterInterrupt { s with ctl := c } target ∧
      c = { s.ctl with r75 := c.r75, trapIe := c.trapIe, trapPendingRim := c.trapPendingRim } := by
  cases k with
  | intr =>
    simp only [takeInterrupt] at h
    split at h
    · exact ⟨s.ctl, _, (Host.Outcome.next.inj h).symm, rfl⟩
    · cases h
  | trap => exact ⟨_, _, (Host.Outcome.next.inj h).symm, rfl⟩
  | rst75 => exact ⟨_, _, (Host.Outcome.next.inj h).symm, rfl⟩
  | rst65 => exact ⟨s.ctl, _, (Host.Outcome.next.inj h).symm, rfl⟩
  | rst55 => exact ⟨s.ctl, _, (Host.Outcome.next.inj h).symm, rfl⟩

/-- What one step can be, when it answers a next state: a reset, an interrupt entry, a halted wait, or an instruction
fetched and executed. -/
theorem step_cases {s t : State} (h : step s = .next t) :
    (s.atBoundary.pins.reset = true ∧ t = s.atBoundary.onReset) ∨
    (∃ k, s.atBoundary.pins.reset = false ∧
      chooseRequest s.atBoundary.pins s.atBoundary.ctl s.ctl.eiDelay = some k ∧
      takeInterrupt k s.atBoundary = .next t) ∨
    (s.atBoundary.pins.reset = false ∧
      chooseRequest s.atBoundary.pins s.atBoundary.ctl s.ctl.eiDelay = none ∧
      s.ctl.halted = true ∧ t = s.atBoundary) ∨
    (s.executesNext ∧ ∃ i u, fetch s.atBoundary = .ok (i, u) ∧ exec i u = .next t) := by
  simp only [step] at h
  split at h
  · next hr => exact .inl ⟨hr, (Host.Outcome.next.inj h).symm⟩
  · next hr =>
    simp only [Bool.not_eq_true] at hr
    split at h
    · next k hk => exact .inr (.inl ⟨k, hr, hk, h⟩)
    · next hk =>
      split at h
      · next hh => exact .inr (.inr (.inl ⟨hr, hk, hh, (Host.Outcome.next.inj h).symm⟩))
      · next hh =>
        simp only [Bool.not_eq_true] at hh
        simp only [runInstruction] at h
        split at h
        · cases h
        · next i u hf => exact .inr (.inr (.inr ⟨⟨hr, hk, hh⟩, i, u, hf, h⟩))

/-- All that fetching can change: the count of draws, the replies still to come, and the history. -/
theorem fetch_frame {s t : State} {i : Instr} (h : fetch s = .ok (i, t)) :
    t.regs = s.regs ∧ t.sp = s.sp ∧ t.pc = s.pc ∧ t.flags = s.flags ∧ t.ctl = s.ctl ∧ t.mem = s.mem ∧
      t.pins = s.pins ∧ t.pinsAhead = s.pinsAhead ∧ t.params = s.params := by
  simp only [fetch] at h
  split at h
  · cases h
  · obtain ⟨-, rfl⟩ := Prod.mk.inj (Except.ok.inj h)
    simp
  · obtain ⟨-, rfl⟩ := Prod.mk.inj (Except.ok.inj h)
    simp
  · obtain ⟨-, rfl⟩ := Prod.mk.inj (Except.ok.inj h)
    simp

end Sys2Proof.Machine
end

