-- ==== Sys2Proof/Laws/PerInstr.lean ====
section
/-! SUPPORT. Families of statements about every instruction as syntax, one lemma for each constructor. -/

namespace Sys2Proof.Laws

/-- An instruction's encoding has the length that R93 gives for its opcode byte. -/
def EncodedLength.Statement (i : Instr) : Prop :=
  i.wellFormed = true → opcodeLength ((encode i).headD 0) = some (encode i).length

/-- The statement from the opcode byte and the length of the encoding. -/
theorem encodedLength_of_head {i : Instr} (op : Byte) (n : Nat) (hop : (encode i).headD 0 = op)
    (hn : (encode i).length = n) (h : opcodeLength op = some n) : EncodedLength.Statement i := by
  intro _
  rw [hop, hn, h]

theorem EncodedLength.movRR (dst : Reg8) (src : Reg8) : EncodedLength.Statement (.movRR dst src) :=
  encodedLength_of_head (packOpcode 0b01 dst.code src.code) 1 rfl rfl (by cases dst <;> cases src <;> decide)

theorem EncodedLength.movRM (dst : Reg8) : EncodedLength.Statement (.movRM dst) :=
  encodedLength_of_head (packOpcode 0b01 dst.code 0b110) 1 rfl rfl (by cases dst <;> decide)

theorem EncodedLength.movMR (src : Reg8) : EncodedLength.Statement (.movMR src) :=
  encodedLength_of_head (packOpcode 0b01 0b110 src.code) 1 rfl rfl (by cases src <;> decide)

theorem EncodedLength.mviR (dst : Reg8) (imm : Byte) : EncodedLength.Statement (.mviR dst imm) :=
  encodedLength_of_head (packOpcode 0b00 dst.code 0b110) 2 rfl rfl (by cases dst <;> decide)

theorem EncodedLength.mviM (imm : Byte) : EncodedLength.Statement (.mviM imm) :=
  encodedLength_of_head 0x36 2 rfl rfl (by decide)

theorem EncodedLength.lxi (rp : RegPair) (imm : Word) : EncodedLength.Statement (.lxi rp imm) :=
  encodedLength_of_head (packPairOpcode 0b00 rp.code 0b0001) 3 rfl rfl (by cases rp <;> decide)

theorem EncodedLength.lda (dir : Word) : EncodedLength.Statement (.lda dir) :=
  encodedLength_of_head 0x3A 3 rfl rfl (by decide)

theorem EncodedLength.sta (dir : Word) : EncodedLength.Statement (.sta dir) :=
  encodedLength_of_head 0x32 3 rfl rfl (by decide)

theorem EncodedLength.lhld (dir : Word) : EncodedLength.Statement (.lhld dir) :=
  encodedLength_of_head 0x2A 3 rfl rfl (by decide)

theorem EncodedLength.shld (dir : Word) : EncodedLength.Statement (.shld dir) :=
  encodedLength_of_head 0x22 3 rfl rfl (by decide)

theorem EncodedLength.ldax (rp : RegPair) : EncodedLength.Statement (.ldax rp) := by
  cases rp <;> first | exact fun h => absurd h (by decide) | exact fun _ => rfl

theorem EncodedLength.stax (rp : RegPair) : EncodedLength.Statement (.stax rp) := by
  cases rp <;> first | exact fun h => absurd h (by decide) | exact fun _ => rfl

theorem EncodedLength.xchg : EncodedLength.Statement .xchg :=
  encodedLength_of_head 0xEB 1 rfl rfl (by decide)

theorem EncodedLength.addR (src : Reg8) : EncodedLength.Statement (.addR src) :=
  encodedLength_of_head (packOpcode 0b10 0b000 src.code) 1 rfl rfl (by cases src <;> decide)

theorem EncodedLength.addM : EncodedLength.Statement .addM :=
  encodedLength_of_head 0x86 1 rfl rfl (by decide)

theorem EncodedLength.adi (imm : Byte) : EncodedLength.Statement (.adi imm) :=
  encodedLength_of_head 0xC6 2 rfl rfl (by decide)

theorem EncodedLength.adcR (src : Reg8) : EncodedLength.Statement (.adcR src) :=
  encodedLength_of_head (packOpcode 0b10 0b001 src.code) 1 rfl rfl (by cases src <;> decide)

theorem EncodedLength.adcM : EncodedLength.Statement .adcM :=
  encodedLength_of_head 0x8E 1 rfl rfl (by decide)

theorem EncodedLength.aci (imm : Byte) : EncodedLength.Statement (.aci imm) :=
  encodedLength_of_head 0xCE 2 rfl rfl (by decide)

theorem EncodedLength.subR (src : Reg8) : EncodedLength.Statement (.subR src) :=
  encodedLength_of_head (packOpcode 0b10 0b010 src.code) 1 rfl rfl (by cases src <;> decide)

theorem EncodedLength.subM : EncodedLength.Statement .subM :=
  encodedLength_of_head 0x96 1 rfl rfl (by decide)

theorem EncodedLength.sui (imm : Byte) : EncodedLength.Statement (.sui imm) :=
  encodedLength_of_head 0xD6 2 rfl rfl (by decide)

theorem EncodedLength.sbbR (src : Reg8) : EncodedLength.Statement (.sbbR src) :=
  encodedLength_of_head (packOpcode 0b10 0b011 src.code) 1 rfl rfl (by cases src <;> decide)

theorem EncodedLength.sbbM : EncodedLength.Statement .sbbM :=
  encodedLength_of_head 0x9E 1 rfl rfl (by decide)

theorem EncodedLength.sbi (imm : Byte) : EncodedLength.Statement (.sbi imm) :=
  encodedLength_of_head 0xDE 2 rfl rfl (by decide)

theorem EncodedLength.inrR (reg : Reg8) : EncodedLength.Statement (.inrR reg) :=
  encodedLength_of_head (packOpcode 0b00 reg.code 0b100) 1 rfl rfl (by cases reg <;> decide)

theorem EncodedLength.inrM : EncodedLength.Statement .inrM :=
  encodedLength_of_head 0x34 1 rfl rfl (by decide)

theorem EncodedLength.dcrR (reg : Reg8) : EncodedLength.Statement (.dcrR reg) :=
  encodedLength_of_head (packOpcode 0b00 reg.code 0b101) 1 rfl rfl (by cases reg <;> decide)

theorem EncodedLength.dcrM : EncodedLength.Statement .dcrM :=
  encodedLength_of_head 0x35 1 rfl rfl (by decide)

theorem EncodedLength.inx (rp : RegPair) : EncodedLength.Statement (.inx rp) :=
  encodedLength_of_head (packPairOpcode 0b00 rp.code 0b0011) 1 rfl rfl (by cases rp <;> decide)

theorem EncodedLength.dcx (rp : RegPair) : EncodedLength.Statement (.dcx rp) :=
  encodedLength_of_head (packPairOpcode 0b00 rp.code 0b1011) 1 rfl rfl (by cases rp <;> decide)

theorem EncodedLength.dad (rp : RegPair) : EncodedLength.Statement (.dad rp) :=
  encodedLength_of_head (packPairOpcode 0b00 rp.code 0b1001) 1 rfl rfl (by cases rp <;> decide)

theorem EncodedLength.daa : EncodedLength.Statement .daa :=
  encodedLength_of_head 0x27 1 rfl rfl (by decide)

theorem EncodedLength.cmpR (src : Reg8) : EncodedLength.Statement (.cmpR src) :=
  encodedLength_of_head (packOpcode 0b10 0b111 src.code) 1 rfl rfl (by cases src <;> decide)

theorem EncodedLength.cmpM : EncodedLength.Statement .cmpM :=
  encodedLength_of_head 0xBE 1 rfl rfl (by decide)

theorem EncodedLength.cpi (imm : Byte) : EncodedLength.Statement (.cpi imm) :=
  encodedLength_of_head 0xFE 2 rfl rfl (by decide)

theorem EncodedLength.anaR (src : Reg8) : EncodedLength.Statement (.anaR src) :=
  encodedLength_of_head (packOpcode 0b10 0b100 src.code) 1 rfl rfl (by cases src <;> decide)

theorem EncodedLength.anaM : EncodedLength.Statement .anaM :=
  encodedLength_of_head 0xA6 1 rfl rfl (by decide)

theorem EncodedLength.ani (imm : Byte) : EncodedLength.Statement (.ani imm) :=
  encodedLength_of_head 0xE6 2 rfl rfl (by decide)

theorem EncodedLength.xraR (src : Reg8) : EncodedLength.Statement (.xraR src) :=
  encodedLength_of_head (packOpcode 0b10 0b101 src.code) 1 rfl rfl (by cases src <;> decide)

theorem EncodedLength.xraM : EncodedLength.Statement .xraM :=
  encodedLength_of_head 0xAE 1 rfl rfl (by decide)

theorem EncodedLength.xri (imm : Byte) : EncodedLength.Statement (.xri imm) :=
  encodedLength_of_head 0xEE 2 rfl rfl (by decide)

theorem EncodedLength.oraR (src : Reg8) : EncodedLength.Statement (.oraR src) :=
  encodedLength_of_head (packOpcode 0b10 0b110 src.code) 1 rfl rfl (by cases src <;> decide)

theorem EncodedLength.oraM : EncodedLength.Statement .oraM :=
  encodedLength_of_head 0xB6 1 rfl rfl (by decide)

theorem EncodedLength.ori (imm : Byte) : EncodedLength.Statement (.ori imm) :=
  encodedLength_of_head 0xF6 2 rfl rfl (by decide)

theorem EncodedLength.cma : EncodedLength.Statement .cma :=
  encodedLength_of_head 0x2F 1 rfl rfl (by decide)

theorem EncodedLength.rlc : EncodedLength.Statement .rlc :=
  encodedLength_of_head 0x07 1 rfl rfl (by decide)

theorem EncodedLength.rrc : EncodedLength.Statement .rrc :=
  encodedLength_of_head 0x0F 1 rfl rfl (by decide)

theorem EncodedLength.ral : EncodedLength.Statement .ral :=
  encodedLength_of_head 0x17 1 rfl rfl (by decide)

theorem EncodedLength.rar : EncodedLength.Statement .rar :=
  encodedLength_of_head 0x1F 1 rfl rfl (by decide)

theorem EncodedLength.cmc : EncodedLength.Statement .cmc :=
  encodedLength_of_head 0x3F 1 rfl rfl (by decide)

theorem EncodedLength.stc : EncodedLength.Statement .stc :=
  encodedLength_of_head 0x37 1 rfl rfl (by decide)

theorem EncodedLength.jmp (dir : Word) : EncodedLength.Statement (.jmp dir) :=
  encodedLength_of_head 0xC3 3 rfl rfl (by decide)

theorem EncodedLength.jccc (cc : Cond) (dir : Word) : EncodedLength.Statement (.jccc cc dir) :=
  encodedLength_of_head (packOpcode 0b11 cc.code 0b010) 3 rfl rfl (by cases cc <;> decide)

theorem EncodedLength.call (dir : Word) : EncodedLength.Statement (.call dir) :=
  encodedLength_of_head 0xCD 3 rfl rfl (by decide)

theorem EncodedLength.cccc (cc : Cond) (dir : Word) : EncodedLength.Statement (.cccc cc dir) :=
  encodedLength_of_head (packOpcode 0b11 cc.code 0b100) 3 rfl rfl (by cases cc <;> decide)

theorem EncodedLength.ret : EncodedLength.Statement .ret :=
  encodedLength_of_head 0xC9 1 rfl rfl (by decide)

theorem EncodedLength.rccc (cc : Cond) : EncodedLength.Statement (.rccc cc) :=
  encodedLength_of_head (packOpcode 0b11 cc.code 0b000) 1 rfl rfl (by cases cc <;> decide)

theorem EncodedLength.rst (n : BitVec 3) : EncodedLength.Statement (.rst n) :=
  encodedLength_of_head (packOpcode 0b11 n 0b111) 1 rfl rfl (by revert n; decide)

theorem EncodedLength.pchl : EncodedLength.Statement .pchl :=
  encodedLength_of_head 0xE9 1 rfl rfl (by decide)

theorem EncodedLength.pushRp (rp : RegPair) : EncodedLength.Statement (.pushRp rp) := by
  cases rp <;> first | exact fun h => absurd h (by decide) | exact fun _ => rfl

theorem EncodedLength.pushPsw : EncodedLength.Statement .pushPsw :=
  encodedLength_of_head 0xF5 1 rfl rfl (by decide)

theorem EncodedLength.popRp (rp : RegPair) : EncodedLength.Statement (.popRp rp) := by
  cases rp <;> first | exact fun h => absurd h (by decide) | exact fun _ => rfl

theorem EncodedLength.popPsw : EncodedLength.Statement .popPsw :=
  encodedLength_of_head 0xF1 1 rfl rfl (by decide)

theorem EncodedLength.xthl : EncodedLength.Statement .xthl :=
  encodedLength_of_head 0xE3 1 rfl rfl (by decide)

theorem EncodedLength.sphl : EncodedLength.Statement .sphl :=
  encodedLength_of_head 0xF9 1 rfl rfl (by decide)

theorem EncodedLength.inPort (port : Byte) : EncodedLength.Statement (.inPort port) :=
  encodedLength_of_head 0xDB 2 rfl rfl (by decide)

theorem EncodedLength.outPort (port : Byte) : EncodedLength.Statement (.outPort port) :=
  encodedLength_of_head 0xD3 2 rfl rfl (by decide)

theorem EncodedLength.ei : EncodedLength.Statement .ei :=
  encodedLength_of_head 0xFB 1 rfl rfl (by decide)

theorem EncodedLength.di : EncodedLength.Statement .di :=
  encodedLength_of_head 0xF3 1 rfl rfl (by decide)

theorem EncodedLength.hlt : EncodedLength.Statement .hlt :=
  encodedLength_of_head 0x76 1 rfl rfl (by decide)

theorem EncodedLength.nop : EncodedLength.Statement .nop :=
  encodedLength_of_head 0x00 1 rfl rfl (by decide)

theorem EncodedLength.rim : EncodedLength.Statement .rim :=
  encodedLength_of_head 0x20 1 rfl rfl (by decide)

theorem EncodedLength.sim : EncodedLength.Statement .sim :=
  encodedLength_of_head 0x30 1 rfl rfl (by decide)

end Sys2Proof.Laws
end

