-- ==== Sys2Proof/Tests/Slice0.lean ====
section
/-! SUPPORT. Tests, each one step or one decoding on a small state, with the expected results of `95_test_vectors.md`
(V-…) and of the rules named; and, for every statement with hypotheses, a concrete state that meets them. -/

namespace Sys2Proof.Tests

open Sys2Proof.Machine

/-! ## Helpers -/

/-- What is seen of the next state, if there is one. -/
def seen {α : Type} (f : State → α) : Host.Outcome State Fault Refusal → Option α
  | .next t => some (f t)
  | .fault _ => none
  | .refused _ => none

/-- The reason of a refusal, if there is one. -/
def reason : Host.Outcome State Fault Refusal → Option Refusal
  | .next _ => none
  | .fault _ => none
  | .refused r => some r

/-- The flags in the order S Z AC P CY that `95_test_vectors.md` writes them in. -/
def szapc (s z a p c : Bool) : Flags := ⟨z, s, p, a, c⟩

/-- Cells written one after the other into an empty memory. -/
def cells : List Host.Cell → Memory
  | [] => []
  | (a, v) :: rest => (cells rest).set a v

/-- Bytes at consecutive addresses. -/
def bytesFrom : Nat → List Byte → List Host.Cell
  | _, [] => []
  | a, v :: rest => (a, v) :: bytesFrom (a + 1) rest

/-- The reset state with PC at 0100, an instruction's bytes there and the cells given. -/
def at100 (bytes : List Byte) (data : List Host.Cell) : State :=
  { State.reset with pc := 0x0100, mem := cells (bytesFrom 0x0100 bytes ++ data) }

/-- The state of rows VI1 to VI12: PC 0150, a NOP there, SP 3000, no mask set. -/
def at150 (inte halted eiDelay : Bool) (p : Pins) : State :=
  { State.reset with
    pc := 0x0150, sp := 0x3000, mem := [(0x0150, 0x00)], pinsAhead := [p]
    ctl := ⟨inte, false, false, false, false, false, halted, eiDelay, false, false⟩ }

/-! ## WellFormed refuses each ill-formed operand (R89 items 3 and 4) -/

theorem test_wf_ldax_h : (Instr.ldax .h).wellFormed = false := by decide
theorem test_wf_ldax_sp : (Instr.ldax .sp).wellFormed = false := by decide
theorem test_wf_stax_h : (Instr.stax .h).wellFormed = false := by decide
theorem test_wf_stax_sp : (Instr.stax .sp).wellFormed = false := by decide
theorem test_wf_push_sp : (Instr.pushRp .sp).wellFormed = false := by decide
theorem test_wf_pop_sp : (Instr.popRp .sp).wellFormed = false := by decide
theorem test_wf_others : (Instr.lxi .sp 0).wellFormed = true ∧ (Instr.ldax .b).wellFormed = true ∧
    (Instr.popRp .h).wellFormed = true := by decide

/-! ## Decoding: a word of every row, written out from its pattern in R88 -/

theorem test_decode_transfer :
    decode [0b01101010] = .ok (.movRR .l .d, []) ∧ decode [0b01011110] = .ok (.movRM .e, []) ∧
    decode [0b01110100] = .ok (.movMR .h, []) ∧ decode [0b00111110, 0x5A] = .ok (.mviR .a 0x5A, []) ∧
    decode [0b00110110, 0xFF] = .ok (.mviM 0xFF, []) ∧ decode [0b00110001, 0xFE, 0xFF] = .ok (.lxi .sp 0xFFFE, []) ∧
    decode [0x3A, 0x50, 0x20] = .ok (.lda 0x2050, []) ∧ decode [0x32, 0x51, 0x20] = .ok (.sta 0x2051, []) ∧
    decode [0x2A, 0x60, 0x20] = .ok (.lhld 0x2060, []) ∧ decode [0x22, 0x70, 0x20] = .ok (.shld 0x2070, []) ∧
    decode [0b00011010] = .ok (.ldax .d, []) ∧ decode [0b00000010] = .ok (.stax .b, []) ∧
    decode [0xEB] = .ok (.xchg, []) := by
  refine ⟨?_, ?_, ?_, ?_, ?_, ?_, ?_, ?_, ?_, ?_, ?_, ?_, ?_⟩ <;> rfl

theorem test_decode_arithmetic :
    decode [0b10000001] = .ok (.addR .c, []) ∧ decode [0x86] = .ok (.addM, []) ∧
    decode [0xC6, 0x42] = .ok (.adi 0x42, []) ∧
    decode [0b10001111] = .ok (.adcR .a, []) ∧ decode [0x8E] = .ok (.adcM, []) ∧
    decode [0xCE, 0xBE] = .ok (.aci 0xBE, []) ∧
    decode [0b10010100] = .ok (.subR .h, []) ∧ decode [0x96] = .ok (.subM, []) ∧
    decode [0xD6, 0x01] = .ok (.sui 0x01, []) ∧
    decode [0b10011101] = .ok (.sbbR .l, []) ∧ decode [0x9E] = .ok (.sbbM, []) ∧
    decode [0xDE, 0x25] = .ok (.sbi 0x25, []) ∧
    decode [0b00010100] = .ok (.inrR .d, []) ∧ decode [0x34] = .ok (.inrM, []) ∧
    decode [0b00011101] = .ok (.dcrR .e, []) ∧
    decode [0x35] = .ok (.dcrM, []) ∧ decode [0b00100011] = .ok (.inx .h, []) ∧
    decode [0b00011011] = .ok (.dcx .d, []) ∧
    decode [0b00111001] = .ok (.dad .sp, []) ∧ decode [0x27] = .ok (.daa, []) ∧
    decode [0b10111011] = .ok (.cmpR .e, []) ∧
    decode [0xBE] = .ok (.cmpM, []) ∧ decode [0xFE, 0x40] = .ok (.cpi 0x40, []) := by
  refine ⟨?_, ?_, ?_, ?_, ?_, ?_, ?_, ?_, ?_, ?_, ?_, ?_, ?_, ?_, ?_, ?_, ?_, ?_, ?_, ?_, ?_, ?_, ?_⟩ <;> rfl

theorem test_decode_logical_rotate :
    decode [0b10100000] = .ok (.anaR .b, []) ∧ decode [0xA6] = .ok (.anaM, []) ∧
    decode [0xE6, 0x0F] = .ok (.ani 0x0F, []) ∧
    decode [0b10101010] = .ok (.xraR .d, []) ∧ decode [0xAE] = .ok (.xraM, []) ∧
    decode [0xEE, 0x81] = .ok (.xri 0x81, []) ∧
    decode [0b10110011] = .ok (.oraR .e, []) ∧ decode [0xB6] = .ok (.oraM, []) ∧
    decode [0xF6, 0x0F] = .ok (.ori 0x0F, []) ∧
    decode [0x2F] = .ok (.cma, []) ∧ decode [0x07] = .ok (.rlc, []) ∧ decode [0x0F] = .ok (.rrc, []) ∧
    decode [0x17] = .ok (.ral, []) ∧ decode [0x1F] = .ok (.rar, []) ∧ decode [0x3F] = .ok (.cmc, []) ∧
    decode [0x37] = .ok (.stc, []) := by
  refine ⟨?_, ?_, ?_, ?_, ?_, ?_, ?_, ?_, ?_, ?_, ?_, ?_, ?_, ?_, ?_, ?_⟩ <;> rfl

theorem test_decode_branch :
    decode [0xC3, 0x50, 0x20] = .ok (.jmp 0x2050, []) ∧ decode [0b11101010, 0x00, 0x20] = .ok (.jccc .pe 0x2000, []) ∧
    decode [0xCD, 0x00, 0x30] = .ok (.call 0x3000, []) ∧ decode [0b11111100, 0x00, 0x30] = .ok (.cccc .m 0x3000, []) ∧
    decode [0xC9] = .ok (.ret, []) ∧ decode [0b11010000] = .ok (.rccc .nc, []) ∧
    decode [0b11101111] = .ok (.rst 5, []) ∧
    decode [0xE9] = .ok (.pchl, []) := by
  refine ⟨?_, ?_, ?_, ?_, ?_, ?_, ?_, ?_⟩ <;> rfl

theorem test_decode_stack_io_control :
    decode [0b11100101] = .ok (.pushRp .h, []) ∧ decode [0xF5] = .ok (.pushPsw, []) ∧
    decode [0b11000001] = .ok (.popRp .b, []) ∧ decode [0xF1] = .ok (.popPsw, []) ∧ decode [0xE3] = .ok (.xthl, []) ∧
    decode [0xF9] = .ok (.sphl, []) ∧ decode [0xDB, 0x01] = .ok (.inPort 0x01, []) ∧
    decode [0xD3, 0x02] = .ok (.outPort 0x02, []) ∧ decode [0xFB] = .ok (.ei, []) ∧ decode [0xF3] = .ok (.di, []) ∧
    decode [0x76] = .ok (.hlt, []) ∧ decode [0x00] = .ok (.nop, []) ∧ decode [0x20] = .ok (.rim, []) ∧
    decode [0x30] = .ok (.sim, []) := by
  refine ⟨?_, ?_, ?_, ?_, ?_, ?_, ?_, ?_, ?_, ?_, ?_, ?_, ?_, ?_⟩ <;> rfl

/-- R91: the first and the last of the ten bytes are refused by name, and a list that ends too soon is no instruction. -/
theorem test_decode_refuses :
    decode [0x08] = .error (.illegalOpcode 0x08) ∧ decode [0xFD, 0x00] = .error (.illegalOpcode 0xFD) ∧
    decode [0x21, 0x50] = .error (.missingOperand 0x21) ∧ decode [] = .error .noBytes := by
  refine ⟨?_, ?_, ?_, ?_⟩ <;> rfl

theorem test_decode_table_word : decodeTableWord 24 0x123421 = some (.lxi .h 0x1234) := rfl

/-! ## The host's entry point -/

/-- The instruction placed by `withFetchWord` is the one that the next step runs. -/
theorem test_with_fetch_word :
    seen (fun t => (t.regs.h, t.regs.l, t.pc)) (step (State.reset.withFetchWord 24 0x123421))
      = some (0x12, 0x34, 0x0003) := by decide

/-- Bits from `nbits` up are zero. -/
theorem test_with_fetch_word_short :
    seen (fun t => (t.regs.a, t.pc)) (step (State.reset.withFetchWord 8 0xFF3E)) = some (0x00, 0x0002) := by decide

/-! ## One step of each instruction (V-T to V-C) -/

/-- VT1, R111: `MOV B,C`. -/
theorem test_mov_b_c_vt1 :
    seen (fun t => (t.regs.b, t.pc, t.flags)) (step { at100 [0x41] [] with
      regs := { State.reset.regs with b := 0x11, c := 0x22 } })
      = some (0x22, 0x0101, szapc false false false false false) := by decide

/-- VT4, R112: `MOV L,M`. -/
theorem test_mov_l_m_vt4 :
    seen (fun t => (t.regs.l, t.pc, t.flags)) (step { at100 [0x6E] [(0x2010, 0x77)] with
      regs := { State.reset.regs with h := 0x20, l := 0x10 } })
      = some (0x77, 0x0101, szapc false false false false false) := by decide

/-- VT6, R113: `MOV M,H`. -/
theorem test_mov_m_h_vt6 :
    seen (fun t => (t.pc, t.flags, t.cell 0x3005)) (step { at100 [0x74] [(0x3005, 0x00)] with
      regs := { State.reset.regs with h := 0x30, l := 0x05 } })
      = some (0x0101, szapc false false false false false, some 0x30) := by decide

/-- VT7, R114: `MVI C,5Ah`. -/
theorem test_mvi_c_5ah_vt7 :
    seen (fun t => (t.regs.c, t.pc, t.flags)) (step { at100 [0x0E, 0x5A] [] with
      regs := { State.reset.regs with c := 0x00 } })
      = some (0x5A, 0x0102, szapc false false false false false) := by decide

/-- VT8, R115: `MVI M,FFh`. -/
theorem test_mvi_m_ffh_vt8 :
    seen (fun t => (t.pc, t.flags, t.cell 0x2000)) (step { at100 [0x36, 0xFF] [(0x2000, 0x12)] with
      regs := { State.reset.regs with h := 0x20, l := 0x00 } })
      = some (0x0102, szapc false false false false false, some 0xFF) := by decide

/-- VT9, R116: `LXI B,1234h`. -/
theorem test_lxi_b_1234h_vt9 :
    seen (fun t => (t.regs.b, t.regs.c, t.pc, t.flags)) (step { at100 [0x01, 0x34, 0x12] [] with
      regs := { State.reset.regs with b := 0x00, c := 0x00 } })
      = some (0x12, 0x34, 0x0103, szapc false false false false false) := by decide

/-- VT10, R116: `LXI SP,FFFEh`. -/
theorem test_lxi_sp_fffeh_vt10 :
    seen (fun t => (t.sp, t.pc, t.flags)) (step { at100 [0x31, 0xFE, 0xFF] [] with
      sp := 0x0000 })
      = some (0xFFFE, 0x0103, szapc false false false false false) := by decide

/-- VT12, R117: `LDA 2050h`. -/
theorem test_lda_2050h_vt12 :
    seen (fun t => (t.regs.a, t.pc, t.flags)) (step { at100 [0x3A, 0x50, 0x20] [(0x2050, 0xC3)] with
      regs := { State.reset.regs with a := 0x00 } })
      = some (0xC3, 0x0103, szapc false false false false false) := by decide

/-- VT13, R118: `STA 2051h`. -/
theorem test_sta_2051h_vt13 :
    seen (fun t => (t.pc, t.flags, t.cell 0x2051)) (step { at100 [0x32, 0x51, 0x20] [(0x2051, 0x00)] with
      regs := { State.reset.regs with a := 0x3C } })
      = some (0x0103, szapc false false false false false, some 0x3C) := by decide

/-- VT15, R119: `LHLD FFFFh`. -/
theorem test_lhld_ffffh_vt15 :
    seen (fun t => (t.regs.h, t.regs.l, t.pc, t.flags)) (step { at100 [0x2A, 0xFF, 0xFF] [(0x0000, 0x22), (0xFFFF, 0x11)] with
      regs := { State.reset.regs with h := 0x00, l := 0x00 } })
      = some (0x22, 0x11, 0x0103, szapc false false false false false) := by decide

/-- VT16, R120: `SHLD 2070h`. -/
theorem test_shld_2070h_vt16 :
    seen (fun t => (t.pc, t.flags, t.cell 0x2070, t.cell 0x2071)) (step { at100 [0x22, 0x70, 0x20] [(0x2070, 0x00), (0x2071, 0x00)] with
      regs := { State.reset.regs with h := 0xAE, l := 0x29 } })
      = some (0x0103, szapc false false false false false, some 0x29, some 0xAE) := by decide

/-- VT18, R121: `LDAX D`. -/
theorem test_ldax_d_vt18 :
    seen (fun t => (t.regs.a, t.pc, t.flags)) (step { at100 [0x1A] [(0x2081, 0x60)] with
      regs := { State.reset.regs with a := 0x00, d := 0x20, e := 0x81 } })
      = some (0x60, 0x0101, szapc false false false false false) := by decide

/-- VT20, R122: `STAX D`. -/
theorem test_stax_d_vt20 :
    seen (fun t => (t.pc, t.flags, t.cell 0x2091)) (step { at100 [0x12] [(0x2091, 0x00)] with
      regs := { State.reset.regs with a := 0xA8, d := 0x20, e := 0x91 } })
      = some (0x0101, szapc false false false false false, some 0xA8) := by decide

/-- VT21, R123: `XCHG`. -/
theorem test_xchg_vt21 :
    seen (fun t => ((t.regs.d, t.regs.e, t.regs.h, t.regs.l), t.pc, t.flags)) (step { at100 [0xEB] [] with
      regs := { State.reset.regs with d := 0x33, e := 0x55, h := 0x00, l := 0xFF } })
      = some ((0x00, 0xFF, 0x33, 0x55), 0x0101, szapc false false false false false) := by decide

/-- VA1, R131: `ADD B`. -/
theorem test_add_b_va1 :
    seen (fun t => (t.regs.a, t.pc, t.flags)) (step { at100 [0x80] [] with
      regs := { State.reset.regs with a := 0x3A, b := 0xC6 } })
      = some (0x00, 0x0101, szapc false true true true true) := by decide

/-- VA4, R132: `ADD M`. -/
theorem test_add_m_va4 :
    seen (fun t => (t.regs.a, t.pc, t.flags)) (step { at100 [0x86] [(0x2000, 0x01)] with
      regs := { State.reset.regs with a := 0x7F, h := 0x20, l := 0x00 } })
      = some (0x80, 0x0101, szapc true false true false false) := by decide

/-- VA5, R133: `ADI 42h`. -/
theorem test_adi_42h_va5 :
    seen (fun t => (t.regs.a, t.pc, t.flags)) (step { at100 [0xC6, 0x42] [] with
      regs := { State.reset.regs with a := 0x14 } })
      = some (0x56, 0x0102, szapc false false false true false) := by decide

/-- VA8, R134: `ADC B`. -/
theorem test_adc_b_va8 :
    seen (fun t => (t.pc, t.flags)) (step { at100 [0x88] [] with
      regs := { State.reset.regs with a := 0xFF, b := 0xFF }
      flags := szapc false false false false true })
      = some (0x0101, szapc true false true true true) := by decide

/-- VA9, R135: `ADC M`. -/
theorem test_adc_m_va9 :
    seen (fun t => (t.regs.a, t.pc, t.flags)) (step { at100 [0x8E] [(0x2000, 0x00)] with
      regs := { State.reset.regs with a := 0xFF, h := 0x20, l := 0x00 }
      flags := szapc false false false false true })
      = some (0x00, 0x0101, szapc false true true true true) := by decide

/-- VA10, R136: `ACI BEh`. -/
theorem test_aci_beh_va10 :
    seen (fun t => (t.regs.a, t.pc, t.flags)) (step { at100 [0xCE, 0xBE] [] with
      regs := { State.reset.regs with a := 0x56 } })
      = some (0x14, 0x0102, szapc false false true true true) := by decide

/-- VA12, R137: `SUB A`. -/
theorem test_sub_a_va12 :
    seen (fun t => (t.regs.a, t.pc, t.flags)) (step { at100 [0x97] [] with
      regs := { State.reset.regs with a := 0xC9 }
      flags := szapc false false false false true })
      = some (0x00, 0x0101, szapc false true true true false) := by decide

/-- VA13, R138: `SUB M`. -/
theorem test_sub_m_va13 :
    seen (fun t => (t.regs.a, t.pc, t.flags)) (step { at100 [0x96] [(0x2000, 0x06)] with
      regs := { State.reset.regs with a := 0x05, h := 0x20, l := 0x00 } })
      = some (0xFF, 0x0101, szapc true false false true true) := by decide

/-- VA15, R139: `SUI 00h`. -/
theorem test_sui_00h_va15 :
    seen (fun t => (t.pc, t.flags)) (step { at100 [0xD6, 0x00] [] with
      regs := { State.reset.regs with a := 0x5A } })
      = some (0x0102, szapc false false true true false) := by decide

/-- VA16, R140: `SBB L`. -/
theorem test_sbb_l_va16 :
    seen (fun t => (t.regs.a, t.pc, t.flags)) (step { at100 [0x9D] [] with
      regs := { State.reset.regs with a := 0x04, l := 0x02 }
      flags := szapc false false false false true })
      = some (0x01, 0x0101, szapc false false true false false) := by decide

/-- VA19, R141: `SBB M`. -/
theorem test_sbb_m_va19 :
    seen (fun t => (t.pc, t.flags)) (step { at100 [0x9E] [(0x2000, 0xFF)] with
      regs := { State.reset.regs with a := 0x00, h := 0x20, l := 0x00 }
      flags := szapc false false false false true })
      = some (0x0101, szapc false true false true true) := by decide

/-- VA20, R142: `SBI 25h`. -/
theorem test_sbi_25h_va20 :
    seen (fun t => (t.regs.a, t.pc, t.flags)) (step { at100 [0xDE, 0x25] [] with
      regs := { State.reset.regs with a := 0x37 }
      flags := szapc false false false false true })
      = some (0x11, 0x0102, szapc false false true true false) := by decide

/-- VA22, R143: `INR B`. -/
theorem test_inr_b_va22 :
    seen (fun t => (t.regs.b, t.pc, t.flags)) (step { at100 [0x04] [] with
      regs := { State.reset.regs with b := 0xFF }
      flags := szapc false false false false true })
      = some (0x00, 0x0101, szapc false true true true true) := by decide

/-- VA24, R144: `INR M`. -/
theorem test_inr_m_va24 :
    seen (fun t => (t.pc, t.flags, t.cell 0x2400)) (step { at100 [0x34] [(0x2400, 0x0F)] with
      regs := { State.reset.regs with h := 0x24, l := 0x00 } })
      = some (0x0101, szapc false false true false false, some 0x10) := by decide

/-- VA25, R145: `DCR C`. -/
theorem test_dcr_c_va25 :
    seen (fun t => (t.regs.c, t.pc, t.flags)) (step { at100 [0x0D] [] with
      regs := { State.reset.regs with c := 0x00 }
      flags := szapc false false false false true })
      = some (0xFF, 0x0101, szapc true false false true true) := by decide

/-- VA27, R146: `DCR M`. -/
theorem test_dcr_m_va27 :
    seen (fun t => (t.pc, t.flags, t.cell 0x2400)) (step { at100 [0x35] [(0x2400, 0x10)] with
      regs := { State.reset.regs with h := 0x24, l := 0x00 } })
      = some (0x0101, szapc false false false true false, some 0x0F) := by decide

/-- VA28, R147: `INX D`. -/
theorem test_inx_d_va28 :
    seen (fun t => (t.regs.d, t.regs.e, t.pc, t.flags)) (step { at100 [0x13] [] with
      regs := { State.reset.regs with d := 0x38, e := 0xFF }
      flags := szapc false true false true false })
      = some (0x39, 0x00, 0x0101, szapc false true false true false) := by decide

/-- VA29, R147: `INX SP`. -/
theorem test_inx_sp_va29 :
    seen (fun t => (t.sp, t.pc, t.flags)) (step { at100 [0x33] [] with
      sp := 0xFFFF })
      = some (0x0000, 0x0101, szapc false false false false false) := by decide

/-- VA32, R148: `DCX B`. -/
theorem test_dcx_b_va32 :
    seen (fun t => (t.regs.b, t.regs.c, t.pc, t.flags)) (step { at100 [0x0B] [] with
      regs := { State.reset.regs with b := 0x00, c := 0x00 } })
      = some (0xFF, 0xFF, 0x0101, szapc false false false false false) := by decide

/-- VA35, R149: `DAD D`. -/
theorem test_dad_d_va35 :
    seen (fun t => (t.regs.h, t.regs.l, t.pc, t.flags)) (step { at100 [0x19] [] with
      regs := { State.reset.regs with h := 0xFF, l := 0xFF, d := 0x00, e := 0x01 } })
      = some (0x00, 0x00, 0x0101, szapc false false false false true) := by decide

/-- VA37, R149: `DAD SP`. -/
theorem test_dad_sp_va37 :
    seen (fun t => (t.regs.h, t.regs.l, t.pc, t.flags)) (step { at100 [0x39] [] with
      regs := { State.reset.regs with h := 0x00, l := 0x02 }
      sp := 0x2FFE })
      = some (0x30, 0x00, 0x0101, szapc false false false false false) := by decide

/-- VA38, R150: `DAA`. -/
theorem test_daa_va38_intel :
    seen (fun t => (t.regs.a, t.pc, t.flags)) (step { at100 [0x27] [] with
      regs := { State.reset.regs with a := 0x9B }
      params := ⟨[], .intel, .intel⟩ })
      = some (0x01, 0x0101, szapc false false true false true) := by decide

/-- VA45, R150: `DAA`. -/
theorem test_daa_va45_source :
    seen (fun t => (t.regs.a, t.pc, t.flags)) (step { at100 [0x27] [] with
      regs := { State.reset.regs with a := 0x9A } })
      = some (0x00, 0x0101, szapc false false false false false) := by decide

/-- VA47, R151: `CMP E`. -/
theorem test_cmp_e_va47 :
    seen (fun t => (t.pc, t.flags)) (step { at100 [0xBB] [] with
      regs := { State.reset.regs with a := 0x02, e := 0x05 } })
      = some (0x0101, szapc true false false false true) := by decide

/-- VA49, R152: `CMP M`. -/
theorem test_cmp_m_va49 :
    seen (fun t => (t.pc, t.flags)) (step { at100 [0xBE] [(0x2000, 0x7F)] with
      regs := { State.reset.regs with a := 0x80, h := 0x20, l := 0x00 } })
      = some (0x0101, szapc false false false false false) := by decide

/-- VA52, R153: `CPI FFh`. -/
theorem test_cpi_ffh_va52 :
    seen (fun t => (t.pc, t.flags)) (step { at100 [0xFE, 0xFF] [] with
      regs := { State.reset.regs with a := 0x00 } })
      = some (0x0102, szapc false false false false true) := by decide

/-- VL1, R161: `ANA B`. -/
theorem test_ana_b_vl1 :
    seen (fun t => (t.regs.a, t.pc, t.flags)) (step { at100 [0xA0] [] with
      regs := { State.reset.regs with a := 0xFC, b := 0x0F }
      flags := szapc false false false false true })
      = some (0x0C, 0x0101, szapc false false true true false) := by decide

/-- VL3, R162: `ANA M`. -/
theorem test_ana_m_vl3 :
    seen (fun t => (t.regs.a, t.pc, t.flags)) (step { at100 [0xA6] [(0x2000, 0x80)] with
      regs := { State.reset.regs with a := 0xFF, h := 0x20, l := 0x00 } })
      = some (0x80, 0x0101, szapc true false true false false) := by decide

/-- VL4, R163: `ANI 0Fh`. -/
theorem test_ani_0fh_vl4 :
    seen (fun t => (t.regs.a, t.pc, t.flags)) (step { at100 [0xE6, 0x0F] [] with
      regs := { State.reset.regs with a := 0x3A } })
      = some (0x0A, 0x0102, szapc false false true true false) := by decide

/-- VL5, R164: `XRA A`. -/
theorem test_xra_a_vl5_source :
    seen (fun t => (t.regs.a, t.pc, t.flags)) (step { at100 [0xAF] [] with
      regs := { State.reset.regs with a := 0x5B }
      flags := szapc true false false false true })
      = some (0x00, 0x0101, szapc false true true true false) := by decide

/-- VL5, R164: `XRA A`. -/
theorem test_xra_a_vl5_intel :
    seen (fun t => (t.regs.a, t.pc, t.flags)) (step { at100 [0xAF] [] with
      regs := { State.reset.regs with a := 0x5B }
      flags := szapc true false false false true
      params := ⟨[], .intel, .intel⟩ })
      = some (0x00, 0x0101, szapc false true false true false) := by decide

/-- VL7, R165: `XRA M`. -/
theorem test_xra_m_vl7_source :
    seen (fun t => (t.regs.a, t.pc, t.flags)) (step { at100 [0xAE] [(0x2000, 0x78)] with
      regs := { State.reset.regs with a := 0x5C, h := 0x20, l := 0x00 } })
      = some (0x24, 0x0101, szapc false false true true false) := by decide

/-- VL8, R166: `XRI 81h`. -/
theorem test_xri_81h_vl8_source :
    seen (fun t => (t.regs.a, t.pc, t.flags)) (step { at100 [0xEE, 0x81] [] with
      regs := { State.reset.regs with a := 0x3B } })
      = some (0xBA, 0x0102, szapc true false true false false) := by decide

/-- VL9, R167: `ORA C`. -/
theorem test_ora_c_vl9_source :
    seen (fun t => (t.regs.a, t.pc, t.flags)) (step { at100 [0xB1] [] with
      regs := { State.reset.regs with a := 0x33, c := 0x0F }
      flags := szapc false false false false true })
      = some (0x3F, 0x0101, szapc false false true true false) := by decide

/-- VL11, R168: `ORA M`. -/
theorem test_ora_m_vl11_source :
    seen (fun t => (t.pc, t.flags)) (step { at100 [0xB6] [(0x2000, 0x00)] with
      regs := { State.reset.regs with a := 0x00, h := 0x20, l := 0x00 } })
      = some (0x0101, szapc false true true true false) := by decide

/-- VL12, R169: `ORI 0Fh`. -/
theorem test_ori_0fh_vl12_source :
    seen (fun t => (t.regs.a, t.pc, t.flags)) (step { at100 [0xF6, 0x0F] [] with
      regs := { State.reset.regs with a := 0xB5 } })
      = some (0xBF, 0x0102, szapc true false true false false) := by decide

/-- VL14, R170: `CMA`. -/
theorem test_cma_vl14 :
    seen (fun t => (t.regs.a, t.pc, t.flags)) (step { at100 [0x2F] [] with
      regs := { State.reset.regs with a := 0xFF } })
      = some (0x00, 0x0101, szapc false false false false false) := by decide

/-- VR1, R176: `RLC`. -/
theorem test_rlc_vr1 :
    seen (fun t => (t.regs.a, t.pc, t.flags)) (step { at100 [0x07] [] with
      regs := { State.reset.regs with a := 0xF2 } })
      = some (0xE5, 0x0101, szapc false false false false true) := by decide

/-- VR3, R177: `RRC`. -/
theorem test_rrc_vr3 :
    seen (fun t => (t.regs.a, t.pc, t.flags)) (step { at100 [0x0F] [] with
      regs := { State.reset.regs with a := 0xF2 }
      flags := szapc false false false false true })
      = some (0x79, 0x0101, szapc false false false false false) := by decide

/-- VR5, R178: `RAL`. -/
theorem test_ral_vr5 :
    seen (fun t => (t.regs.a, t.pc, t.flags)) (step { at100 [0x17] [] with
      regs := { State.reset.regs with a := 0xB5 } })
      = some (0x6A, 0x0101, szapc false false false false true) := by decide

/-- VR8, R179: `RAR`. -/
theorem test_rar_vr8 :
    seen (fun t => (t.regs.a, t.pc, t.flags)) (step { at100 [0x1F] [] with
      regs := { State.reset.regs with a := 0x01 } })
      = some (0x00, 0x0101, szapc false false false false true) := by decide

/-- VR10, R180: `CMC`. -/
theorem test_cmc_vr10 :
    seen (fun t => (t.pc, t.flags)) (step { at100 [0x3F] [] with
      flags := szapc true true true true false })
      = some (0x0101, szapc true true true true true) := by decide

/-- VR11, R181: `STC`. -/
theorem test_stc_vr11 :
    seen (fun t => (t.pc, t.flags)) (step (at100 [0x37] []))
      = some (0x0101, szapc false false false false true) := by decide

/-- VB1, R186: `JMP 2000h`. -/
theorem test_jmp_2000h_vb1 :
    seen (fun t => (t.pc, t.flags)) (step (at100 [0xC3, 0x00, 0x20] []))
      = some (0x2000, szapc false false false false false) := by decide

/-- VB17, R187: `JM 2000h`. -/
theorem test_jm_2000h_vb17 :
    seen (fun t => (t.pc, t.flags)) (step { at100 [0xFA, 0x00, 0x20] [] with
      flags := szapc true false false false false })
      = some (0x2000, szapc true false false false false) := by decide

/-- VB20, R188: `CALL 2000h`. -/
theorem test_call_2000h_vb20 :
    seen (fun t => (t.sp, t.pc, t.flags, t.cell 0x0000, t.cell 0xFFFF)) (step { at100 [0xCD, 0x00, 0x20] [(0x0000, 0x00), (0xFFFF, 0x00)] with
      sp := 0x0001 })
      = some (0xFFFF, 0x2000, szapc false false false false false, some 0x01, some 0x03) := by decide

/-- VB21, R189: `CZ 2000h`. -/
theorem test_cz_2000h_vb21 :
    seen (fun t => (t.sp, t.pc, t.flags, t.cell 0x2FFE, t.cell 0x2FFF)) (step { at100 [0xCC, 0x00, 0x20] [(0x2FFE, 0x00), (0x2FFF, 0x00)] with
      sp := 0x3000
      flags := szapc false true false false false })
      = some (0x2FFE, 0x2000, szapc false true false false false, some 0x03, some 0x01) := by decide

/-- VB24, R189: `CM 2000h`. -/
theorem test_cm_2000h_vb24 :
    seen (fun t => (t.pc, t.flags)) (step { at100 [0xFC, 0x00, 0x20] [] with
      sp := 0x3000 })
      = some (0x0103, szapc false false false false false) := by decide

/-- VB26, R190: `RET`. -/
theorem test_ret_vb26 :
    seen (fun t => (t.sp, t.pc, t.flags)) (step { at100 [0xC9] [(0x0000, 0x12), (0xFFFF, 0x34)] with
      sp := 0xFFFF })
      = some (0x0001, 0x1234, szapc false false false false false) := by decide

/-- VB29, R191: `RPE`. -/
theorem test_rpe_vb29 :
    seen (fun t => (t.sp, t.pc, t.flags)) (step { at100 [0xE8] [(0x2FFE, 0x00), (0x2FFF, 0x40)] with
      sp := 0x2FFE
      flags := szapc false false false true false })
      = some (0x3000, 0x4000, szapc false false false true false) := by decide

/-- VB30, R191: `RC`. -/
theorem test_rc_vb30 :
    seen (fun t => (t.pc, t.flags)) (step { at100 [0xD8] [(0x2FFE, 0x00), (0x2FFF, 0x40)] with
      sp := 0x2FFE })
      = some (0x0101, szapc false false false false false) := by decide

/-- VB32, R192: `RST 5`. -/
theorem test_rst_5_vb32 :
    seen (fun t => (t.sp, t.pc, t.flags, t.cell 0x2FFE, t.cell 0x2FFF)) (step { at100 [0xEF] [(0x2FFE, 0x00), (0x2FFF, 0x00)] with
      sp := 0x3000 })
      = some (0x2FFE, 0x0028, szapc false false false false false, some 0x01, some 0x01) := by decide

/-- VB34, R193: `PCHL`. -/
theorem test_pchl_vb34 :
    seen (fun t => (t.pc, t.flags)) (step { at100 [0xE9] [] with
      regs := { State.reset.regs with h := 0x41, l := 0x3E }
      sp := 0x3000 })
      = some (0x413E, szapc false false false false false) := by decide

/-- VS2, R201: `PUSH D`. -/
theorem test_push_d_vs2 :
    seen (fun t => (t.sp, t.pc, t.flags, t.cell 0x3A2A, t.cell 0x3A2B)) (step { at100 [0xD5] [(0x3A2A, 0x00), (0x3A2B, 0x00)] with
      regs := { State.reset.regs with d := 0x8F, e := 0x9D }
      sp := 0x3A2C })
      = some (0x3A2A, 0x0101, szapc false false false false false, some 0x9D, some 0x8F) := by decide

/-- VS6, R203: `POP D`. -/
theorem test_pop_d_vs6 :
    seen (fun t => (t.regs.d, t.regs.e, t.sp, t.pc, t.flags)) (step { at100 [0xD1] [(0x0000, 0x02), (0xFFFF, 0x01)] with
      regs := { State.reset.regs with d := 0x00, e := 0x00 }
      sp := 0xFFFF })
      = some (0x02, 0x01, 0x0001, 0x0101, szapc false false false false false) := by decide

/-- VS9, R204: `POP PSW`. -/
theorem test_pop_psw_vs9 :
    seen (fun t => (t.regs.a, t.sp, t.pc, t.flags)) (step { at100 [0xF1] [(0x2FFE, 0xC3), (0x2FFF, 0x77)] with
      regs := { State.reset.regs with a := 0x00 }
      sp := 0x2FFE })
      = some (0x77, 0x3000, 0x0101, szapc true true false false true) := by decide

/-- VS11, R205: `XTHL`. -/
theorem test_xthl_vs11 :
    seen (fun t => ((t.regs.h, t.regs.l), t.pc, t.flags, t.cell 0x0000, t.cell 0xFFFF)) (step { at100 [0xE3] [(0x0000, 0x44), (0xFFFF, 0x33)] with
      regs := { State.reset.regs with h := 0x11, l := 0x22 }
      sp := 0xFFFF })
      = some ((0x44, 0x33), 0x0101, szapc false false false false false, some 0x11, some 0x22) := by decide

/-- VS12, R206: `SPHL`. -/
theorem test_sphl_vs12 :
    seen (fun t => (t.sp, t.pc, t.flags)) (step { at100 [0xF9] [] with
      regs := { State.reset.regs with h := 0x50, l := 0x6C }
      sp := 0x0000 })
      = some (0x506C, 0x0101, szapc false false false false false) := by decide

/-- VC1, R212: `OUT 10h`. -/
theorem test_out_10h_vc1 :
    seen (fun t => (t.pc, t.flags, t.history)) (step { at100 [0xD3, 0x10] [] with
      regs := { State.reset.regs with a := 0x7E } })
      = some (0x0102, szapc false false false false false, [.portWrite 0x10 0x7E]) := by decide

/-- VC2, R219: `NOP`. -/
theorem test_nop_vc2 :
    seen (fun t => (t.pc, t.flags)) (step { at100 [0x00] [] with
      regs := { State.reset.regs with a := 0x12 }
      sp := 0x1234
      flags := szapc true false true false true })
      = some (0x0101, szapc true false true false true) := by decide

/-- VC3, R216: `EI`. -/
theorem test_ei_vc3 :
    seen (fun t => ((t.ctl.inte), t.pc, t.flags)) (step { at100 [0xFB] [] with
      ctl := { State.reset.ctl with inte := false } })
      = some ((true), 0x0101, szapc false false false false false) := by decide

/-- VC4, R217: `DI`. -/
theorem test_di_vc4 :
    seen (fun t => ((t.ctl.inte), t.pc, t.flags)) (step { at100 [0xF3] [] with
      ctl := { State.reset.ctl with inte := true } })
      = some ((false), 0x0101, szapc false false false false false) := by decide

/-- VC5, R218: `HLT`. -/
theorem test_hlt_vc5 :
    seen (fun t => ((t.ctl.halted), t.pc, t.flags)) (step (at100 [0x76] []))
      = some ((true), 0x0101, szapc false false false false false) := by decide

/-- VC6, R221: `SIM`. -/
theorem test_sim_vc6 :
    seen (fun t => ((t.ctl.m55), t.pc, t.flags)) (step { at100 [0x30] [] with
      regs := { State.reset.regs with a := 0x0E }
      ctl := { State.reset.ctl with m75 := true, m65 := true, m55 := true } })
      = some ((false), 0x0101, szapc false false false false false) := by decide

/-- VC11, R221, log 14: the event too: `SIM`. -/
theorem test_sim_vc11 :
    seen (fun t => (t.history, (t.ctl.m75, t.ctl.m65, t.ctl.m55, t.ctl.sod), t.pc, t.flags)) (step { at100 [0x30] [] with
      regs := { State.reset.regs with a := 0x48 }
      ctl := { State.reset.ctl with sod := true, m75 := true, m65 := true, m55 := true } })
      = some ([.serialOut false], (false, false, false, false), 0x0101, szapc false false false false false) := by decide

/-! ## Steps with free or environment values (V-X) -/

/-- VX1, R202: A at SP - 1, and the flag byte AND D5 is C4 whatever the free bits are. -/
theorem test_push_psw_vx1 (t : State)
    (h : step { at100 [0xF5] [] with
      regs := { State.reset.regs with a := 0x1F }
      sp := 0x3000
      flags := szapc true true false true false } = .next t) :
    t.sp = 0x2FFE ∧ t.cell 0x2FFF = some 0x1F ∧
      ∃ f, t.cell 0x2FFE = some f ∧ f.getLsbD 7 = true ∧ f.getLsbD 6 = true ∧ f.getLsbD 4 = false ∧
        f.getLsbD 2 = true ∧ f.getLsbD 0 = false := by
  cases h
  exact ⟨rfl, rfl, _, rfl, flagByte_shows _ _⟩

/-- VX4, R211: `IN 01h`, with an environment that answers 00; flags not touched, the event recorded. -/
theorem test_in_vx4 :
    seen (fun t => (t.regs.a, t.pc, t.flags, t.history)) (step { at100 [0xDB, 0x01] [] with
      regs := { State.reset.regs with a := 0x77 }
      flags := szapc true false true false true
      ioReplies := [0x00] })
      = some (0x00, 0x0102, szapc true false true false true, [.portRead 0x01 0x00]) := by decide

/-- VX6, R220: RIM does not clear the latch. -/
theorem test_rim_vx6 :
    seen (fun t => (t.regs.a, t.ctl.r75)) (step { at100 [0x20] [] with
      ctl := ⟨true, false, true, false, true, false, false, true, false, false⟩
      pinsAhead := [{ Pins.idle with rst55 := true, sid := some true }] }) = some (0xDA, true) := by decide

/-! ## Memory map and fetch (R57, V-D) -/

/-- R57: a store to ROM changes nothing. -/
theorem test_sta_rom :
    seen (fun t => (t.cell 0x2051, t.pc)) (step { at100 [0x32, 0x51, 0x20] [(0x2051, 0x11)] with
      regs := { State.reset.regs with a := 0x3C }, params := ⟨[⟨0x2000, 0x1000, .rom⟩], .source, .source⟩ })
      = some (some 0x11, 0x0103) := by decide

/-- R57: a load from a device address is answered by the environment and recorded. -/
theorem test_lda_device :
    seen (fun t => (t.regs.a, t.history)) (step { at100 [0x3A, 0x00, 0x80] [] with
      ioReplies := [0x5A], params := ⟨[⟨0x8000, 0x8000, .device⟩], .source, .source⟩ })
      = some (0x5A, [.deviceRead 0x8000 0x5A]) := by decide

/-- VD4, R231: the byte and its address are in the refusal. -/
theorem test_illegal_opcode_vd4 : reason (step (at100 [0x08] [])) = some (.illegalOpcode 0x08 0x0100) := by decide

/-- VD6, R27: PC wraps. -/
theorem test_nop_wraps_vd6 :
    seen (fun t => t.pc) (step { State.reset with pc := 0xFFFF, mem := [(0xFFFF, 0x00)] }) = some 0x0000 := by decide

/-- VD8, R52: the fetch of operand bytes wraps. -/
theorem test_jmp_wraps_vd8 :
    seen (fun t => t.pc)
      (step { State.reset with pc := 0xFFFF, mem := [(0x0000, 0x00), (0x0001, 0x20), (0xFFFF, 0xC3)] })
      = some 0x2000 := by decide

/-! ## Interrupts (V-I, R260) -/

/-- VI1, R238: RST 5.5. -/
theorem test_rst55_vi1 :
    seen (fun t => (t.pc, t.sp, t.cell 0x2FFF, t.cell 0x2FFE, t.ctl.inte))
      (step (at150 true false false { Pins.idle with rst55 := true }))
      = some (0x002C, 0x2FFE, some 0x01, some 0x50, false) := by decide

/-- VI2, R234: disabled. -/
theorem test_rst55_disabled_vi2 :
    seen (fun t => t.pc) (step (at150 false false false { Pins.idle with rst55 := true })) = some 0x0151 := by decide

/-- VI4, R245: held off by `ei_delay`. -/
theorem test_rst55_delayed_vi4 :
    seen (fun t => (t.pc, t.ctl.eiDelay, t.ctl.inte)) (step (at150 true false true { Pins.idle with rst55 := true }))
      = some (0x0151, false, true) := by decide

/-- VI5, R235: RST 7.5 first. -/
theorem test_priority_vi5 :
    seen (fun t => (t.pc, t.sp, t.ctl.r75, t.ctl.inte)) (step (at150 true false false
      { Pins.idle with rst75edge := true, rst65 := true, rst55 := true, intr := true }))
      = some (0x003C, 0x2FFE, false, false) := by decide

/-- VI7, R239: TRAP ignores INTE and `ei_delay`, and keeps the old INTE. -/
theorem test_trap_vi7 :
    seen (fun t => (t.pc, t.ctl.inte, t.ctl.trapIe, t.ctl.trapPendingRim))
      (step (at150 true false true { Pins.idle with trap := true })) = some (0x0024, false, true, true) := by decide

/-- VI8, R240: INTR with RST 7 pushes PC not advanced. -/
theorem test_intr_rst_vi8 :
    seen (fun t => (t.pc, t.cell 0x2FFF, t.cell 0x2FFE))
      (step (at150 true false false { Pins.idle with intr := true, intrInsn := [0xFF] }))
      = some (0x0038, some 0x01, some 0x50) := by decide

/-- VI9, R240: INTR with CALL 4000h. -/
theorem test_intr_call_vi9 :
    seen (fun t => (t.pc, t.cell 0x2FFE))
      (step (at150 true false false { Pins.idle with intr := true, intrInsn := [0xCD, 0x00, 0x40] }))
      = some (0x4000, some 0x50) := by decide

/-- VI10, R246: a halt is ended by an enabled interrupt. -/
theorem test_halt_ended_vi10 :
    seen (fun t => (t.ctl.halted, t.pc, t.ctl.inte)) (step (at150 true true false { Pins.idle with rst65 := true }))
      = some (false, 0x0034, false) := by decide

/-- VI11, R246: a halt with INTE = 0 goes on. -/
theorem test_halt_kept_vi11 :
    seen (fun t => (t.ctl.halted, t.pc)) (step (at150 false true false { Pins.idle with rst65 := true }))
      = some (true, 0x0150) := by decide

/-- VI12, R244: the request is examined before the fetch, so an unassigned byte at PC is not fetched. -/
theorem test_interrupt_before_illegal_vi12 :
    seen (fun t => t.pc) (step { at150 true false false { Pins.idle with rst55 := true } with mem := [(0x0150, 0x08)] })
      = some 0x002C := by decide

/-- R261: what the reset input gives a value, from a halted machine. -/
theorem test_reset_input :
    seen (fun t => (t.pc, t.ctl)) (step (at150 true true false { Pins.idle with reset := true }))
      = some (0x0000, State.reset.ctl) := by decide

/-- R221, R36: the fall of SOD by reset is recorded; with SOD 0 already nothing is. -/
theorem test_reset_records_sod :
    let s (sod : Bool) : State := { at150 false true false { Pins.idle with reset := true } with
      ctl := { State.reset.ctl with sod := sod, halted := true } }
    seen (fun t => (t.ctl.sod, t.history)) (step (s true)) = some (false, [.serialOut false]) ∧
    seen (fun t => (t.ctl.sod, t.history)) (step (s false)) = some (false, []) := by decide

/-- VB12, R187, log 20: a JPO not taken, whose operand bytes are read: here at device addresses, with two answers used
up. -/
theorem test_jpo_not_taken_vb12_reads_operands :
    seen (fun t => (t.pc, t.ioReplies, t.history)) (step { at100 [0xE2] [] with
      flags := szapc false false false true false
      ioReplies := [0x10, 0x20, 0x30], params := ⟨[⟨0x0101, 2, .device⟩], .source, .source⟩ })
      = some (0x0103, [0x30], [.deviceRead 0x0101 0x10, .deviceRead 0x0102 0x20]) := by decide

/-! ## The hypotheses of the statements can be met -/

theorem witness_DecodeOfEncode : (Instr.popRp .h).wellFormed = true := by decide
theorem witness_EncodeOfDecode : decode [0x21, 0x34, 0x12, 0x76] = .ok (.lxi .h 0x1234, [0x76]) := rfl

/-- An instruction of three bytes at the top of the address space, so that its bytes wrap. -/
theorem witness_StepRunsDecodedInstruction :
    let s : State := { State.reset with pc := 0xFFFF, mem := [(0x0000, 0x34), (0x0001, 0x12), (0xFFFF, 0x21)] }
    let bytes : List Byte := [0x21, 0x34, 0x12]
    s.executesNext ∧ decode bytes = .ok (.lxi .h 0x1234, []) ∧
      ∀ (k : Nat) (h : k < bytes.length), Holds s (s.pc + BitVec.ofNat 16 k) bytes[k] :=
  ⟨⟨rfl, rfl, rfl⟩, rfl, fun k h =>
    match k, h with
    | 0, _ | 1, _ | 2, _ => ⟨.inl rfl, rfl⟩
    | k + 3, h => absurd h (by simp)⟩

theorem witness_RefusalsAreTheSpecsTwo_bytes :
    (at100 [0x08] []).executesNext ∧ (0x08 : Byte) ∈ unassignedBytes ∧ Holds (at100 [0x08] []) 0x0100 0x08 ∧
    (at100 [0xFD] []).executesNext ∧ (0xFD : Byte) ∈ unassignedBytes ∧ Holds (at100 [0xFD] []) 0x0100 0xFD :=
  ⟨⟨rfl, rfl, rfl⟩, by decide, ⟨.inl rfl, rfl⟩, ⟨rfl, rfl, rfl⟩, by decide, .inl rfl, rfl⟩
theorem witness_RefusalsAreTheSpecsTwo_outcomes :
    step (at100 [0xFD] []) = .refused (.illegalOpcode 0xFD 0x0100) ∧
    step (at150 true false false { Pins.idle with intr := true }) = .refused (.intrInstruction []) := ⟨rfl, rfl⟩

theorem witness_LoadByteIntoRegister : (Instr.ldax .b).wellFormed = true ∧ (Instr.ldax .d).wellFormed = true := by decide
theorem witness_StoreByte : (Instr.stax .b).wellFormed = true ∧ (Instr.stax .d).wellFormed = true := by decide
theorem witness_PushAndPopPair :
    (Instr.pushRp .b).wellFormed = true ∧ (Instr.pushRp .h).wellFormed = true ∧
    (Instr.popRp .b).wellFormed = true ∧ (Instr.popRp .h).wellFormed = true := by decide

theorem witness_DecimalAdjustGivesDecimalSum :
    let s : State := { State.reset with
      regs := { State.reset.regs with a := 0x99 }, params := ⟨[], .intel, .source⟩ }
    (99 < 100) ∧ s.regs.a = packedBcd 99 ∧ s.params.daaFlags = .intel ∧
      State.reset.regs.a = packedBcd 0 := by decide

/-- Every condition of Jccc, Cccc and Rccc holds in one of these two states and fails in the other. -/
theorem witness_Jumps_Calls_Returns :
    let off := State.reset.flags
    let on := szapc true true true true true
    (ConditionHolds .nz off ∧ ¬ ConditionHolds .nz on) ∧ (ConditionHolds .z on ∧ ¬ ConditionHolds .z off) ∧
    (ConditionHolds .nc off ∧ ¬ ConditionHolds .nc on) ∧ (ConditionHolds .c on ∧ ¬ ConditionHolds .c off) ∧
    (ConditionHolds .po off ∧ ¬ ConditionHolds .po on) ∧ (ConditionHolds .pe on ∧ ¬ ConditionHolds .pe off) ∧
    (ConditionHolds .p off ∧ ¬ ConditionHolds .p on) ∧ (ConditionHolds .m on ∧ ¬ ConditionHolds .m off) := by
  simp [ConditionHolds, szapc, State.reset]

/-- The stack at the bottom of the address space: SP - 1 is 0000 and SP - 2 is FFFF. -/
theorem witness_CallThenReturn_PswRoundTrip :
    let s : State := { State.reset with sp := 0x0001 }
    s.kindAt (s.sp - 1) = .ram ∧ s.kindAt (s.sp - 2) = .ram := by decide

theorem witness_ReadInterruptMask : ({ State.reset with pins := { Pins.idle with sid := some true } } : State).pins.sid
    = some true := rfl

/-- Each of the five right-hand sides holds for some pins and control state. -/
theorem witness_InterruptPriority :
    let c : Control := ⟨true, false, false, false, false, false, false, false, false, false⟩
    chooseRequest { Pins.idle with trap := true } c true = some .trap ∧
    chooseRequest Pins.idle { c with r75 := true } false = some .rst75 ∧
    chooseRequest { Pins.idle with rst65 := true, rst55 := true } { c with r75 := true, m75 := true } false
      = some .rst65 ∧
    chooseRequest { Pins.idle with rst65 := true, rst55 := true } { c with m65 := true } false = some .rst55 ∧
    chooseRequest { Pins.idle with rst55 := true, intr := true } { c with m55 := true } false = some .intr := by decide

theorem witness_VectoredInterruptEntry :
    let chosen (p : Pins) (k : Source) (vector : Word) : Prop :=
      let s := at150 true false false p
      s.atBoundary.pins.reset = false ∧
        chooseRequest s.atBoundary.pins s.atBoundary.ctl s.ctl.eiDelay = some k ∧ vectorOf k = some vector
    chosen { Pins.idle with trap := true } .trap 0x0024 ∧ chosen { Pins.idle with rst75edge := true } .rst75 0x003C ∧
    chosen { Pins.idle with rst65 := true } .rst65 0x0034 ∧ chosen { Pins.idle with rst55 := true } .rst55 0x002C := by
  decide

theorem witness_IntrAcknowledge :
    let s (bytes : List Byte) := at150 true false false { Pins.idle with intr := true, intrInsn := bytes }
    (s [0xFF]).atBoundary.pins.reset = false ∧
    chooseRequest (s [0xFF]).atBoundary.pins (s [0xFF]).atBoundary.ctl (s [0xFF]).ctl.eiDelay = some .intr ∧
    (s [0xFF]).atBoundary.pins.intrInsn = [packOpcode 0b11 7 0b111] ∧
    (s [0xCD, 0x00, 0x40]).atBoundary.pins.intrInsn = opcodeAndWord 0xCD 0x4000 := by decide
/-- A NOP supplied at an INTR acknowledge is neither of the two. -/
theorem witness_IntrAcknowledge_other :
    (∀ n : BitVec 3, ([0x00] : List Byte) ≠ [packOpcode 0b11 n 0b111]) ∧
    ∀ dir : Word, ([0x00] : List Byte) ≠ opcodeAndWord 0xCD dir :=
  ⟨by decide, fun _ h => by simp [opcodeAndWord] at h⟩
/-- Where the clauses meet: an RST 7 or a CALL 4000h with a byte more is neither of the two and is refused (log 12). -/
theorem witness_IntrAcknowledge_longer :
    let s (bytes : List Byte) := at150 true false false { Pins.idle with intr := true, intrInsn := bytes }
    (∀ n : BitVec 3, ([0xFF, 0x00] : List Byte) ≠ [packOpcode 0b11 n 0b111]) ∧
    (∀ dir : Word, ([0xFF, 0x00] : List Byte) ≠ opcodeAndWord 0xCD dir) ∧
    (∀ n : BitVec 3, ([0xCD, 0x00, 0x40, 0x00] : List Byte) ≠ [packOpcode 0b11 n 0b111]) ∧
    (∀ dir : Word, ([0xCD, 0x00, 0x40, 0x00] : List Byte) ≠ opcodeAndWord 0xCD dir) ∧
    step (s [0xFF, 0x00]) = .refused (.intrInstruction [0xFF, 0x00]) ∧
    step (s [0xCD, 0x00, 0x40, 0x00]) = .refused (.intrInstruction [0xCD, 0x00, 0x40, 0x00]) :=
  ⟨by decide, fun _ h => by simp [opcodeAndWord] at h, by decide, fun _ h => by simp [opcodeAndWord] at h, rfl, rfl⟩

theorem witness_TrapReportsOldInte :
    let s := at150 true false true { Pins.idle with trap := true }
    s.atBoundary.pins.reset = false ∧ s.atBoundary.pins.trap = true := by decide

/-- After EI, a boundary with TRAP and one with every maskable request. -/
theorem witness_EiDelaysOneBoundary :
    let after (p : Pins) : State := { State.reset with
      pinsAhead := [p], ctl := { State.reset.ctl with inte := true, eiDelay := true, m55 := false } }
    (after { Pins.idle with rst55 := true, intr := true }).atBoundary.pins.trap = false ∧
    (after { Pins.idle with trap := true }).atBoundary.pins.trap = true := by decide

theorem witness_HaltedUntilInterruptOrReset_waits :
    let s := at150 false true false { Pins.idle with rst55 := true, intr := true }
    s.ctl.halted = true ∧ s.atBoundary.pins.reset = false ∧
      chooseRequest s.atBoundary.pins s.atBoundary.ctl s.ctl.eiDelay = none := by decide
theorem witness_HaltedUntilInterruptOrReset_ends :
    let s := at150 false true false { Pins.idle with trap := true }
    s.ctl.halted = true ∧ ∃ t, step s = .next t ∧ t.ctl.halted = false := ⟨rfl, _, rfl, rfl⟩

/-- The latch set by an edge and cleared by the step: by its own interrupt, by a SIM, by a reset. -/
theorem witness_Rst75Latch_taken :
    let s := at150 true false false { Pins.idle with rst75edge := true }
    s.atBoundary.ctl.r75 = true ∧ ∃ t, step s = .next t ∧ t.ctl.r75 = false := ⟨rfl, _, rfl, rfl⟩
theorem witness_Rst75Latch_sim :
    let s : State := { at100 [0x30] [] with
      regs := { State.reset.regs with a := 0x10 }, ctl := { State.reset.ctl with r75 := true } }
    s.atBoundary.ctl.r75 = true ∧ ∃ t, step s = .next t ∧ t.ctl.r75 = false := ⟨rfl, _, rfl, rfl⟩
theorem witness_Rst75Latch_reset :
    let s := at150 true false false { Pins.idle with rst75edge := true, reset := true }
    s.atBoundary.ctl.r75 = true ∧ ∃ t, step s = .next t ∧ t.ctl.r75 = false := ⟨rfl, _, rfl, rfl⟩

/-- A reset of a machine with a ROM: its cell is still there afterwards. -/
theorem witness_ResetInput :
    let s : State := { State.reset with
      mem := [(0x0000, 0xC3)], params := ⟨[⟨0x0000, 16, .rom⟩], .source, .source⟩
      pinsAhead := [{ Pins.idle with reset := true }] }
    s.atBoundary.pins.reset = true ∧ ∃ t, step s = .next t ∧ t.cell 0x0000 = some 0xC3 := ⟨rfl, _, rfl, rfl⟩

/-- The invariant holds in a state with EI just executed and memory in use, and the step goes on. -/
theorem witness_StepKeepsInvariant :
    let s := at150 true false true { Pins.idle with intr := true }
    s.Inv ∧ ∃ t, step s = .next t := ⟨⟨rfl, fun _ => rfl⟩, _, rfl⟩

theorem witness_HistoryGrowsAndParametersStay :
    ∃ t, step (at100 [0xD3, 0x10] []) = .next t ∧ t.history = [.portWrite 0x10 0x00] := ⟨_, rfl, rfl⟩

theorem witness_InterruptEnableWriters_set :
    let s := at100 [0xFB] []
    ∃ t, step s = .next t ∧ s.ctl.inte = false ∧ t.ctl.inte = true := ⟨_, rfl, rfl, rfl⟩
theorem witness_InterruptEnableWriters_clear :
    let s := at150 true false false { Pins.idle with intr := true, intrInsn := [0xC7] }
    ∃ t, step s = .next t ∧ s.ctl.inte = true ∧ t.ctl.inte = false := ⟨_, rfl, rfl, rfl⟩
theorem witness_InterruptEnableWriters_masks :
    let s : State := { at100 [0x30] [] with regs := { State.reset.regs with a := 0x08 } }
    ∃ t, step s = .next t ∧ (t.ctl.m75, t.ctl.m65, t.ctl.m55) ≠ (s.ctl.m75, s.ctl.m65, s.ctl.m55) :=
  ⟨_, rfl, by decide⟩

theorem witness_RegisterWriters :
    ∃ t, exec (.dad .sp) State.reset = .next t ∧ writesReg (.dad .sp) .e = false ∧ writesSp (.dad .sp) = false :=
  ⟨_, rfl, rfl, rfl⟩

/-- DAA under `source`, which writes no flag; DAD, which writes CY only; MOV, which writes none. -/
theorem witness_FlagWriters :
    (∃ t, exec .daa State.reset = .next t ∧ (Instr.daa = .daa → State.reset.params.daaFlags = .source) ∧
      writesZspAc .daa = false ∧ writesCy .daa = false) ∧
    (∃ t, exec (.dad .b) State.reset = .next t ∧ (Instr.dad .b = .daa → State.reset.params.daaFlags = .source) ∧
      writesZspAc (.dad .b) = false) ∧
    (∃ t, exec (.movRR .a .b) State.reset = .next t ∧ writesCy (.movRR .a .b) = false) :=
  ⟨⟨_, rfl, fun _ => rfl, rfl, rfl⟩, ⟨_, rfl, fun _ => rfl, rfl⟩, _, rfl, rfl⟩

theorem witness_MemoryWriters :
    ∃ t, exec (.lda 0xFFFF) State.reset = .next t ∧ storesMemory (.lda 0xFFFF) = false := ⟨_, rfl, rfl⟩

theorem witness_RomNeverChanges :
    let s : State := { at100 [0x77] [(0x0000, 0x55)] with params := ⟨[⟨0x0000, 16, .rom⟩], .source, .source⟩ }
    ∃ t, step s = .next t ∧ s.kindAt 0x0000 = .rom := ⟨_, rfl, rfl⟩

theorem witness_FlagReadingsMatterOnlyWhereSaid :
    ∃ t, readsFlagReading (.anaR .b) = false ∧ exec (.anaR .b) State.reset = .next t := ⟨_, rfl, rfl⟩
/-- The same for an instruction that draws a free value (log 10). -/
theorem witness_FlagReadingsMatterOnlyWhereSaid_draws :
    ∃ t, readsFlagReading .pushPsw = false ∧ exec .pushPsw State.reset = .next t ∧ t.draws = 1 := ⟨_, rfl, rfl, rfl⟩

/-- VD10: STA to the next address, the byte stored being a NOP, at the top of the address space. -/
theorem witness_StoreSeenByNextFetch :
    let s : State := { State.reset with pc := 0xFFFD }
    s.kindAt (s.pc + 3) = .ram ∧ decode [s.regs.a] = .ok (.nop, []) ∧
      ∃ t, exec (.sta (s.pc + 3)) s = .next t ∧ t.executesNext := ⟨rfl, rfl, _, rfl, rfl, rfl, rfl⟩

end Sys2Proof.Tests
end

/-! SUPPORT. What the operand forms, the shared operations of the arithmetic and logical instructions, the port accesses
and the branches leave in the registers, SP, the flags, the control state and memory: one lemma for each field and
operation, in the manner of `Laws/State.lean`. -/

namespace Sys2Proof.Machine

/-! ## The three operand forms (R130) -/

@[simp] theorem regOperand_eq (s : State) (r : Reg8) : s.regOperand r = (s.reg r, s) := rfl
@[simp] theorem memOperand_eq (s : State) : s.memOperand = s.read8 s.hl := rfl
@[simp] theorem immOperand_eq (s : State) (v : Byte) : s.immOperand v = (v, s) := rfl

/-! ## Arithmetic and logic on A -/

@[simp] theorem addToA_regs (o : Byte × State) (cin : Bool) :
    (addToA o cin).regs = { o.2.regs with a := (add8 o.2.regs.a o.1 cin).res } := rfl
@[simp] theorem addToA_sp (o : Byte × State) (cin : Bool) : (addToA o cin).sp = o.2.sp := rfl
@[simp] theorem addToA_ctl (o : Byte × State) (cin : Bool) : (addToA o cin).ctl = o.2.ctl := rfl
@[simp] theorem addToA_mem (o : Byte × State) (cin : Bool) : (addToA o cin).mem = o.2.mem := rfl

@[simp] theorem subFromA_regs (o : Byte × State) (bin : Bool) :
    (subFromA o bin).regs = { o.2.regs with a := (sub8 o.2.regs.a o.1 bin).res } := rfl
@[simp] theorem subFromA_sp (o : Byte × State) (bin : Bool) : (subFromA o bin).sp = o.2.sp := rfl
@[simp] theorem subFromA_ctl (o : Byte × State) (bin : Bool) : (subFromA o bin).ctl = o.2.ctl := rfl
@[simp] theorem subFromA_mem (o : Byte × State) (bin : Bool) : (subFromA o bin).mem = o.2.mem := rfl

@[simp] theorem compareWithA_regs (o : Byte × State) : (compareWithA o).regs = o.2.regs := rfl
@[simp] theorem compareWithA_sp (o : Byte × State) : (compareWithA o).sp = o.2.sp := rfl
@[simp] theorem compareWithA_ctl (o : Byte × State) : (compareWithA o).ctl = o.2.ctl := rfl
@[simp] theorem compareWithA_mem (o : Byte × State) : (compareWithA o).mem = o.2.mem := rfl

@[simp] theorem logicToA_regs (s : State) (res : Byte) (isAnd : Bool) :
    (logicToA s res isAnd).regs = { s.regs with a := res } := rfl
@[simp] theorem logicToA_sp (s : State) (res : Byte) (isAnd : Bool) : (logicToA s res isAnd).sp = s.sp := rfl
@[simp] theorem logicToA_ctl (s : State) (res : Byte) (isAnd : Bool) : (logicToA s res isAnd).ctl = s.ctl := rfl
@[simp] theorem logicToA_mem (s : State) (res : Byte) (isAnd : Bool) : (logicToA s res isAnd).mem = s.mem := rfl

@[simp] theorem andToA_eq (o : Byte × State) : andToA o = logicToA o.2 (o.2.regs.a &&& o.1) true := rfl
@[simp] theorem xorToA_eq (o : Byte × State) : xorToA o = logicToA o.2 (o.2.regs.a ^^^ o.1) false := rfl
@[simp] theorem orToA_eq (o : Byte × State) : orToA o = logicToA o.2 (o.2.regs.a ||| o.1) false := rfl

@[simp] theorem rotated_regs (s : State) (a : Byte) (cy : Bool) : (rotated s a cy).regs = { s.regs with a := a } := rfl
@[simp] theorem rotated_sp (s : State) (a : Byte) (cy : Bool) : (rotated s a cy).sp = s.sp := rfl
@[simp] theorem rotated_flags (s : State) (a : Byte) (cy : Bool) :
    (rotated s a cy).flags = { s.flags with cy := cy } := rfl
@[simp] theorem rotated_ctl (s : State) (a : Byte) (cy : Bool) : (rotated s a cy).ctl = s.ctl := rfl
@[simp] theorem rotated_mem (s : State) (a : Byte) (cy : Bool) : (rotated s a cy).mem = s.mem := rfl

/-! ## CY under INR, DCR and DAA -/

/-- INR keeps CY (R143). -/
@[simp] theorem incFlags_cy (f : Flags) (v : Byte) : (incFlags f v).cy = f.cy := rfl
/-- DCR keeps CY (R145). -/
@[simp] theorem decFlags_cy (f : Flags) (v : Byte) : (decFlags f v).cy = f.cy := rfl
/-- DAA writes no flag under the card's reading (R150). -/
@[simp] theorem daaFlagsAfter_source (a : Byte) (f : Flags) : daaFlagsAfter .source a f = f := rfl

/-! ## The environment's answers, the ports and the serial input -/

/-- All that an answer of the environment can change: the count of draws and the replies still to come. -/
theorem envReply_frame (s : State) :
    s.envReply.2 = { s with draws := s.envReply.2.draws, ioReplies := s.envReply.2.ioReplies } := by
  have h := envReply_answers s
  unfold EnvAnswers at h
  split at h <;> rw [h.2]

/-- All that a port read can change: the same, and the history (R211). -/
theorem ioRead_frame (s : State) (port : Byte) :
    (s.ioRead port).2 = { s with
      draws := (s.ioRead port).2.draws, ioReplies := (s.ioRead port).2.ioReplies
      history := (s.ioRead port).2.history } := by
  rw [State.ioRead, envReply_frame s]
  rfl

@[simp] theorem ioRead_regs (s : State) (port : Byte) : (s.ioRead port).2.regs = s.regs := by rw [ioRead_frame]
@[simp] theorem ioRead_sp (s : State) (port : Byte) : (s.ioRead port).2.sp = s.sp := by rw [ioRead_frame]
@[simp] theorem ioRead_flags (s : State) (port : Byte) : (s.ioRead port).2.flags = s.flags := by rw [ioRead_frame]
@[simp] theorem ioRead_ctl (s : State) (port : Byte) : (s.ioRead port).2.ctl = s.ctl := by rw [ioRead_frame]
@[simp] theorem ioRead_mem (s : State) (port : Byte) : (s.ioRead port).2.mem = s.mem := by rw [ioRead_frame]

@[simp] theorem ioWrite_eq (s : State) (port v : Byte) : s.ioWrite port v = s.record (.portWrite port v) := rfl

/-- All that sampling the serial input can change is the count of draws (U8). -/
theorem serialIn_frame (s : State) : s.serialIn.2 = { s with draws := s.serialIn.2.draws } := by
  unfold State.serialIn
  split <;> rfl

@[simp] theorem serialIn_regs (s : State) : s.serialIn.2.regs = s.regs := by rw [serialIn_frame]
@[simp] theorem serialIn_sp (s : State) : s.serialIn.2.sp = s.sp := by rw [serialIn_frame]
@[simp] theorem serialIn_flags (s : State) : s.serialIn.2.flags = s.flags := by rw [serialIn_frame]
@[simp] theorem serialIn_ctl (s : State) : s.serialIn.2.ctl = s.ctl := by rw [serialIn_frame]
@[simp] theorem serialIn_mem (s : State) : s.serialIn.2.mem = s.mem := by rw [serialIn_frame]

/-! ## Two-byte stores, calls and returns -/

@[simp] theorem write16_regs (s : State) (a v : Word) : (s.write16 a v).regs = s.regs := by simp [State.write16]
@[simp] theorem write16_sp (s : State) (a v : Word) : (s.write16 a v).sp = s.sp := by simp [State.write16]
@[simp] theorem write16_flags (s : State) (a v : Word) : (s.write16 a v).flags = s.flags := by simp [State.write16]
@[simp] theorem write16_ctl (s : State) (a v : Word) : (s.write16 a v).ctl = s.ctl := by simp [State.write16]

/-- A two-byte store keeps the canonical form of memory. -/
theorem write16_mem_wf (s : State) (a v : Word) (h : s.mem.wf = true) : (s.write16 a v).mem.wf = true :=
  write8_mem_wf _ _ _ (write8_mem_wf _ _ _ h)

@[simp] theorem callTo_regs (s : State) (ret target : Word) : (s.callTo ret target).regs = s.regs := by
  simp [State.callTo]
@[simp] theorem callTo_flags (s : State) (ret target : Word) : (s.callTo ret target).flags = s.flags := by
  simp [State.callTo]
@[simp] theorem callTo_ctl (s : State) (ret target : Word) : (s.callTo ret target).ctl = s.ctl := by
  simp [State.callTo]

/-- A call keeps the canonical form of memory. -/
theorem callTo_mem_wf (s : State) (ret target : Word) (h : s.mem.wf = true) : (s.callTo ret target).mem.wf = true :=
  push16_mem_wf s ret h

/-- Interrupt entry keeps the canonical form of memory: it is a call. -/
theorem enterInterrupt_mem_wf (s : State) (target : Word) (h : s.mem.wf = true) :
    (s.enterInterrupt target).mem.wf = true :=
  callTo_mem_wf _ _ _ h

@[simp] theorem popPc_regs (s : State) : s.popPc.regs = s.regs := by simp [State.popPc]
@[simp] theorem popPc_flags (s : State) : s.popPc.flags = s.flags := by simp [State.popPc]
@[simp] theorem popPc_ctl (s : State) : s.popPc.ctl = s.ctl := by simp [State.popPc]
@[simp] theorem popPc_mem (s : State) : s.popPc.mem = s.mem := by simp [State.popPc]

/-! ## Registers that an update does not name -/

@[simp] theorem State.reg_advance (s : State) (n : Nat) (r : Reg8) : (s.advance n).reg r = s.reg r :=
  State.reg_congr rfl r
@[simp] theorem State.reg_setFlags (s : State) (f : Flags) (r : Reg8) : (s.setFlags f).reg r = s.reg r :=
  State.reg_congr rfl r
@[simp] theorem State.reg_read8 (s : State) (a : Word) (r : Reg8) : (s.read8 a).2.reg r = s.reg r :=
  State.reg_congr (read8_regs s a) r
@[simp] theorem State.reg_read16 (s : State) (a : Word) (r : Reg8) : (s.read16 a).2.reg r = s.reg r :=
  State.reg_congr (read16_regs s a) r
@[simp] theorem State.reg_pop16 (s : State) (r : Reg8) : s.pop16.2.reg r = s.reg r :=
  State.reg_congr (pop16_regs s) r
@[simp] theorem State.reg_write8 (s : State) (a : Word) (v : Byte) (r : Reg8) : (s.write8 a v).reg r = s.reg r :=
  State.reg_congr (write8_regs s a v) r

/-- A register outside the pair reads as before; SP has no register (R21). -/
theorem State.reg_setPair_other (s : State) (rp : RegPair) (v : Word) (r : Reg8) (h : pairHas rp r = false) :
    (s.setPair rp v).reg r = s.reg r := by
  cases rp with
  | b | d | h => cases r <;> first | rfl | cases h
  | sp => exact State.reg_congr rfl r

/-- Every register but A reads as before. -/
theorem State.reg_setA_other (s : State) (v : Byte) {r : Reg8} (hr : (r == .a) = false) :
    (s.setA v).reg r = s.reg r := by
  cases r with
  | a => cases hr
  | b | c | d | e | h | l => rfl

/-- If the registers differ in A at most, every register but A reads as before. -/
theorem State.reg_of_regs_but_a {s t : State} {r : Reg8} (h : (t.setA s.regs.a).regs = s.regs)
    (hr : (r == .a) = false) : t.reg r = s.reg r :=
  (State.reg_setA_other t s.regs.a hr).symm.trans (State.reg_congr h r)

end Sys2Proof.Machine

/-! The invariant of O49 and O50: which instructions write memory and the control state, that each kind of step keeps
the invariant, and that reset meets it. -/

namespace Sys2Proof.Machine

/-! ## Which instructions write memory and the control state -/

/-- The instructions that write the control state of R33 to R38 (R216, R217, R218, R220, R221). -/
def writesControl : Instr → Bool
  | .ei | .di | .hlt | .rim | .sim => true
  | _ => false

/-- Any other instruction leaves the whole control state. -/
theorem exec_ctl_of_not_writesControl {i : Instr} {s t : State} (h : exec i s = .next t)
    (hw : writesControl i = false) : t.ctl = s.ctl := by
  cases i with
  | ei | di | hlt | rim | sim => cases hw
  | jccc | cccc | rccc =>
    obtain rfl := Host.Outcome.next.inj h
    split <;> simp
  | _ =>
    obtain rfl := Host.Outcome.next.inj h
    simp

/-- An instruction that R54 lists with no write leaves memory. -/
theorem exec_mem_of_not_storesMemory {i : Instr} {s t : State} (h : exec i s = .next t)
    (hw : storesMemory i = false) : t.mem = s.mem := by
  cases i with
  | movMR | mviM | inrM | dcrM | sta | shld | stax | pushRp | pushPsw | xthl | call | cccc | rst => cases hw
  | jccc | rccc =>
    obtain rfl := Host.Outcome.next.inj h
    split <;> simp
  | _ =>
    obtain rfl := Host.Outcome.next.inj h
    simp

/-- Every instruction keeps the canonical form of memory: those that write do it by one or two stores of a byte. -/
theorem exec_mem_wf {i : Instr} {s t : State} (h : exec i s = .next t) (hm : s.mem.wf = true) : t.mem.wf = true := by
  by_cases hw : storesMemory i = false
  · rw [exec_mem_of_not_storesMemory h hw]
    exact hm
  have hread : (s.read8 s.hl).2.mem.wf = true := by rw [read8_mem]; exact hm
  cases i with
  | movMR | mviM | sta | stax =>
    obtain rfl := Host.Outcome.next.inj h
    exact write8_mem_wf _ _ _ hm
  | inrM | dcrM =>
    obtain rfl := Host.Outcome.next.inj h
    exact write8_mem_wf _ _ _ hread
  | shld =>
    obtain rfl := Host.Outcome.next.inj h
    exact write16_mem_wf _ _ _ hm
  | pushRp =>
    obtain rfl := Host.Outcome.next.inj h
    exact push16_mem_wf _ _ hm
  | pushPsw =>
    obtain rfl := Host.Outcome.next.inj h
    exact write8_mem_wf _ _ _ (write8_mem_wf _ _ _ hm)
  | xthl =>
    obtain rfl := Host.Outcome.next.inj h
    have hread16 : (s.read16 s.sp).2.mem.wf = true := by rw [read16_mem]; exact hm
    exact write8_mem_wf _ _ _ (write8_mem_wf _ _ _ hread16)
  | call | rst =>
    obtain rfl := Host.Outcome.next.inj h
    exact callTo_mem_wf _ _ _ hm
  | cccc =>
    obtain rfl := Host.Outcome.next.inj h
    split
    · exact callTo_mem_wf _ _ _ hm
    · exact hm
  | _ => exact absurd rfl hw

/-- Every instruction keeps `ei_delay` 1 only with INTE 1: EI sets both, DI clears both, HLT, RIM and SIM write neither
(R216 to R221). -/
theorem exec_inte_of_eiDelay {i : Instr} {s t : State} (h : exec i s = .next t)
    (hs : s.ctl.eiDelay = true → s.ctl.inte = true) : t.ctl.eiDelay = true → t.ctl.inte = true := by
  by_cases hw : writesControl i = false
  · rw [exec_ctl_of_not_writesControl h hw]
    exact hs
  cases i with
  | ei =>
    obtain rfl := Host.Outcome.next.inj h
    exact fun _ => rfl
  | di =>
    obtain rfl := Host.Outcome.next.inj h
    exact nofun
  | hlt | sim =>
    obtain rfl := Host.Outcome.next.inj h
    exact hs
  | rim =>
    obtain rfl := Host.Outcome.next.inj h
    simpa using hs
  | _ => exact absurd rfl hw

/-! ## Each kind of step keeps the invariant -/

/-- The boundary leaves memory, and uses up `ei_delay` (R238). -/
theorem State.Inv.atBoundary {s : State} (h : s.Inv) : s.atBoundary.Inv :=
  ⟨h.1, nofun⟩

/-- Reset drops cells, and clears `ei_delay` (R261). -/
theorem State.Inv.onReset {s : State} (h : s.Inv) : s.onReset.Inv :=
  ⟨Memory.wf_filter _ _ h.1, nofun⟩

/-- Interrupt entry pushes PC and clears INTE: it keeps the invariant where the boundary has used up `ei_delay`. -/
theorem State.Inv.takeInterrupt {k : Source} {s t : State} (h : s.Inv) (hd : s.ctl.eiDelay = false)
    (ht : takeInterrupt k s = .next t) : t.Inv := by
  obtain ⟨c, target, rfl, hc⟩ := takeInterrupt_next ht
  have hcd : c.eiDelay = false := by rw [hc]; exact hd
  refine ⟨enterInterrupt_mem_wf _ _ h.1, fun htd => ?_⟩
  rw [enterInterrupt_ctl] at htd
  exact absurd (hcd.symm.trans htd) Bool.false_ne_true

/-- The fetch leaves memory and the control state. -/
theorem State.Inv.fetch {i : Instr} {s t : State} (h : s.Inv) (ht : fetch s = .ok (i, t)) : t.Inv := by
  obtain ⟨-, -, -, -, hctl, hmem, -, -, -⟩ := fetch_frame ht
  rw [State.Inv, hctl, hmem]
  exact h

theorem State.Inv.exec {i : Instr} {s t : State} (h : s.Inv) (ht : exec i s = .next t) : t.Inv :=
  ⟨exec_mem_wf ht h.1, exec_inte_of_eiDelay ht h.2⟩

/-- Settles O49: the boundary keeps the invariant, and so does each of the four things a step can then be. -/
theorem stepKeepsInvariant : Obligations.StepKeepsInvariant := by
  intro s t hs h
  have hb : s.atBoundary.Inv := hs.atBoundary
  obtain ⟨-, rfl⟩ | ⟨k, -, -, hk⟩ | ⟨-, -, -, rfl⟩ | ⟨-, i, u, hf, he⟩ := step_cases h
  · exact hb.onReset
  · exact hb.takeInterrupt rfl hk
  · exact hb
  · exact (hb.fetch hf).exec he

/-- Settles O50: no cell is listed, and `ei_delay` is 0. -/
theorem resetMeetsInvariant : Obligations.ResetMeetsInvariant :=
  ⟨Memory.wf_reset, nofun⟩

end Sys2Proof.Machine

/-! The tables of R23 and R31 as frames: O55 and O56. -/

namespace Sys2Proof.Machine

/-! ## Registers and SP (R23) -/

/-- An instruction changes no 8-bit register that R23 does not list for it. -/
theorem exec_reg_of_not_writesReg {i : Instr} {s t : State} {r : Reg8} (h : exec i s = .next t)
    (hr : writesReg i r = false) : t.reg r = s.reg r := by
  cases i with
  -- the destination is a register operand
  | movRR dst | movRM dst | mviR dst | inrR dst | dcrR dst =>
    obtain rfl := Host.Outcome.next.inj h
    have hne : r ≠ dst := ne_of_beq_false hr
    simp [State.reg_setReg_other, hne]
  -- the destination is a pair operand
  | lxi rp | inx rp | dcx rp | popRp rp =>
    obtain rfl := Host.Outcome.next.inj h
    have hrp : pairHas rp r = false := hr
    simp [State.reg_setPair_other, hrp]
  -- the destination is HL
  | lhld | dad | xthl =>
    obtain rfl := Host.Outcome.next.inj h
    have hhl : pairHas .h r = false := hr
    simp [State.reg_setPair_other, hhl]
  | xchg =>
    obtain rfl := Host.Outcome.next.inj h
    obtain ⟨hde, hhl⟩ := Bool.or_eq_false_iff.mp hr
    simp [State.reg_setPair_other, hde, hhl]
  -- the destination is A
  | lda | ldax | addR | addM | adi | adcR | adcM | aci | subR | subM | sui | sbbR | sbbM | sbi | daa
  | anaR | anaM | ani | xraR | xraM | xri | oraR | oraM | ori | cma | rlc | rrc | ral | rar | popPsw | inPort | rim =>
    obtain rfl := Host.Outcome.next.inj h
    exact State.reg_of_regs_but_a (by simp) hr
  -- no register is written
  | jccc | cccc | rccc =>
    obtain rfl := Host.Outcome.next.inj h
    exact State.reg_congr (by split <;> simp) r
  | movMR | mviM | sta | shld | stax | inrM | dcrM | cmpR | cmpM | cpi | cmc | stc | jmp | call | ret | rst | pchl
  | pushRp | pushPsw | sphl | outPort | ei | di | hlt | nop | sim =>
    obtain rfl := Host.Outcome.next.inj h
    exact State.reg_congr (by simp) r

/-- SP changes only by the instructions of R23's SP line. -/
theorem exec_sp_of_not_writesSp {i : Instr} {s t : State} (h : exec i s = .next t) (hw : writesSp i = false) :
    t.sp = s.sp := by
  cases i with
  | sphl | pushRp | pushPsw | popRp | popPsw | call | cccc | ret | rccc | rst => cases hw
  | lxi rp | inx rp | dcx rp =>
    obtain rfl := Host.Outcome.next.inj h
    exact State.setPair_sp_of_ne _ _ _ (ne_of_beq_false hw)
  | lhld | dad | xthl | xchg =>
    obtain rfl := Host.Outcome.next.inj h
    simp [State.setPair_sp_of_ne]
  | jccc =>
    obtain rfl := Host.Outcome.next.inj h
    split <;> rfl
  | _ =>
    obtain rfl := Host.Outcome.next.inj h
    simp

/-- Settles O55: the frame of the registers and that of SP. -/
theorem registerWriters : Obligations.RegisterWriters :=
  fun _ _ _ h => ⟨fun _ => exec_reg_of_not_writesReg h, exec_sp_of_not_writesSp h⟩

/-! ## Flags (R31) -/

/-- Settles O56: the instructions of R31 by what they write: all five flags, all but CY, CY alone, or none. -/
theorem flagWriters : Obligations.FlagWriters := by
  intro i s t h hdaa
  have keepsAll (hf : t.flags = s.flags) :
      (writesZspAc i = false →
        t.flags.z = s.flags.z ∧ t.flags.s = s.flags.s ∧ t.flags.p = s.flags.p ∧ t.flags.ac = s.flags.ac) ∧
      (writesCy i = false → t.flags.cy = s.flags.cy) := by
    simp [hf]
  cases i with
  -- all five flags
  | addR | addM | adi | adcR | adcM | aci | subR | subM | sui | sbbR | sbbM | sbi | cmpR | cmpM | cpi
  | anaR | anaM | ani | xraR | xraM | xri | oraR | oraM | ori | popPsw => exact ⟨nofun, nofun⟩
  -- all but CY
  | inrR | inrM | dcrR | dcrM =>
    obtain rfl := Host.Outcome.next.inj h
    exact ⟨nofun, fun _ => by simp⟩
  -- CY alone
  | dad | rlc | rrc | ral | rar | cmc | stc =>
    obtain rfl := Host.Outcome.next.inj h
    exact ⟨fun _ => by simp, nofun⟩
  -- none
  | daa =>
    obtain rfl := Host.Outcome.next.inj h
    exact keepsAll (by simp [hdaa rfl])
  | jccc | cccc | rccc =>
    obtain rfl := Host.Outcome.next.inj h
    exact keepsAll (by split <;> simp)
  | _ =>
    obtain rfl := Host.Outcome.next.inj h
    exact keepsAll (by simp)

end Sys2Proof.Machine

/-! What no step takes back: the open parameters, the events recorded and the content of ROM (O53, O58); and memory
under an instruction without a store (O57). -/

namespace Sys2Proof.Machine

/-! ## What every operation keeps (R7, R56, R57) -/

/-- From `s` to `t` the open parameters stay, events are only appended to the history, and ROM keeps its content. -/
structure Keeps (s t : State) : Prop where
  params : t.params = s.params
  history : s.history <+: t.history
  rom : ∀ a, s.kindAt a = .rom → t.cell a = s.cell a

theorem Keeps.refl (s : State) : Keeps s s :=
  ⟨rfl, List.prefix_rfl, fun _ _ => rfl⟩

theorem Keeps.trans {s t u : State} (h : Keeps s t) (h' : Keeps t u) : Keeps s u where
  params := h'.params.trans h.params
  history := h.history.trans h'.history
  rom a ha := (h'.rom a ((State.kindAt_congr h.params a).trans ha)).trans (h.rom a ha)

/-- Registers, SP, PC, flags, control state, pins, replies and draws are free to change. -/
theorem Keeps.of_frame {s t : State} (hp : t.params = s.params) (hh : t.history = s.history)
    (hm : t.mem = s.mem) : Keeps s t :=
  ⟨hp, hh ▸ List.prefix_rfl, fun a _ => State.cell_congr hm a⟩

/-- The same behind operations that keep. -/
theorem Keeps.then_frame {s t u : State} (h : Keeps s t) (hp : u.params = t.params) (hh : u.history = t.history)
    (hm : u.mem = t.mem) : Keeps s u :=
  h.trans (.of_frame hp hh hm)

theorem Keeps.advance {s t : State} {n : Nat} (h : Keeps s t) : Keeps s (t.advance n) :=
  h.then_frame rfl rfl rfl

theorem Keeps.setFlags {s t : State} {f : Flags} (h : Keeps s t) : Keeps s (t.setFlags f) :=
  h.then_frame rfl rfl rfl

theorem Keeps.setPair {s t : State} {rp : RegPair} {v : Word} (h : Keeps s t) : Keeps s (t.setPair rp v) :=
  h.then_frame (State.setPair_params t rp v) (State.setPair_history t rp v) (State.setPair_mem t rp v)

theorem record_keeps (s : State) (e : Event) : Keeps s (s.record e) :=
  ⟨rfl, List.prefix_append _ _, fun _ _ => rfl⟩

theorem recordSod_keeps (s : State) (old : Bool) : Keeps s (s.recordSod old) where
  params := rfl
  history := by
    rw [State.recordSod_history]
    split
    · exact List.prefix_rfl
    · exact List.prefix_append _ _
  rom _ _ := rfl

/-! ## Reads and stores -/

theorem envReply_keeps (s : State) : Keeps s s.envReply.2 := by
  rw [envReply_frame]
  exact .of_frame rfl rfl rfl

theorem readCell_keeps (s : State) (a : Word) : Keeps s (s.readCell a).2 := by
  unfold State.readCell
  cases s.cell a with
  | some => exact .refl s
  | none => exact .of_frame rfl rfl rfl

theorem read8_keeps (s : State) (a : Word) : Keeps s (s.read8 a).2 := by
  unfold State.read8
  cases s.kindAt a with
  | ram | rom => exact readCell_keeps s a
  | unmapped => exact .of_frame rfl rfl rfl
  | device => exact (envReply_keeps s).trans (record_keeps _ _)

theorem read16_keeps (s : State) (a : Word) : Keeps s (s.read16 a).2 :=
  (read8_keeps s a).trans (read8_keeps _ (a + 1))

/-- A store changes a cell of RAM, or nothing, or appends an event: never a cell of ROM (R57). -/
theorem Stores.keeps {s t : State} {a : Word} {v : Byte} (h : Stores s a v t) : Keeps s t := by
  unfold Stores at h
  split at h
  · next hk =>
    obtain ⟨-, hother, ht⟩ := h
    refine ⟨by rw [ht], by rw [ht], fun b hb => hother b ?_⟩
    rintro rfl
    exact absurd (hk.symm.trans hb) nofun
  · exact h ▸ .refl s
  · exact h ▸ .refl s
  · exact h ▸ record_keeps s _

theorem write8_keeps (s : State) (a : Word) (v : Byte) : Keeps s (s.write8 a v) :=
  (write8_stores s a v).keeps

theorem write16_keeps (s : State) (a v : Word) : Keeps s (s.write16 a v) :=
  (write8_keeps s a _).trans (write8_keeps _ (a + 1) _)

theorem ioRead_keeps (s : State) (port : Byte) : Keeps s (s.ioRead port).2 :=
  (envReply_keeps s).trans (record_keeps _ _)

theorem serialIn_keeps (s : State) : Keeps s s.serialIn.2 := by
  rw [serialIn_frame]
  exact .of_frame rfl rfl rfl

/-! ## The stack -/

theorem push16_keeps (s : State) (v : Word) : Keeps s (s.push16 v) :=
  ((write8_keeps s _ _).trans (write8_keeps _ _ _)).then_frame rfl rfl rfl

theorem pop16_keeps (s : State) : Keeps s s.pop16.2 :=
  (read16_keeps s s.sp).then_frame rfl rfl rfl

theorem callTo_keeps (s : State) (ret target : Word) : Keeps s (s.callTo ret target) :=
  (push16_keeps s ret).then_frame rfl rfl rfl

theorem popPc_keeps (s : State) : Keeps s s.popPc :=
  (pop16_keeps s).then_frame rfl rfl rfl

/-! ## Instructions and steps -/

/-- Every instruction keeps: what it does to memory and the history it does by reads, stores and recorded events. -/
theorem exec_keeps {i : Instr} {s t : State} (h : exec i s = .next t) : Keeps s t := by
  cases i with
  -- reads of memory
  | movRM | addM | adcM | subM | sbbM | cmpM | anaM | xraM | oraM | lda | ldax =>
    obtain rfl := Host.Outcome.next.inj h
    exact (read8_keeps s _).then_frame rfl rfl rfl
  | lhld =>
    obtain rfl := Host.Outcome.next.inj h
    exact (read16_keeps s _).setPair.advance
  -- stores
  | movMR | mviM | sta | stax =>
    obtain rfl := Host.Outcome.next.inj h
    exact (write8_keeps s _ _).advance
  | shld =>
    obtain rfl := Host.Outcome.next.inj h
    exact (write16_keeps s _ _).advance
  -- a read, then stores
  | inrM | dcrM =>
    obtain rfl := Host.Outcome.next.inj h
    exact ((read8_keeps s s.hl).trans (write8_keeps _ s.hl _)).setFlags.advance
  | xthl =>
    obtain rfl := Host.Outcome.next.inj h
    have hread : Keeps s (s.read16 s.sp).2 := read16_keeps s s.sp
    have hhigh := hread.trans (write8_keeps _ (s.sp + 1) s.regs.h)
    exact (hhigh.trans (write8_keeps _ s.sp s.regs.l)).setPair.advance
  -- the stack
  | pushRp =>
    obtain rfl := Host.Outcome.next.inj h
    exact (push16_keeps s _).advance
  | pushPsw =>
    obtain rfl := Host.Outcome.next.inj h
    have hdraw : Keeps s (s.write8 (s.sp - 1) s.regs.a).draw8.2 := (write8_keeps s _ _).then_frame rfl rfl rfl
    have hlow := hdraw.trans (write8_keeps _ (s.sp - 2) (flagByte s.flags (s.write8 (s.sp - 1) s.regs.a).draw8.1))
    exact hlow.then_frame rfl rfl rfl
  | popRp =>
    obtain rfl := Host.Outcome.next.inj h
    exact (pop16_keeps s).setPair.advance
  | popPsw =>
    obtain rfl := Host.Outcome.next.inj h
    exact (pop16_keeps s).then_frame rfl rfl rfl
  | call | rst =>
    obtain rfl := Host.Outcome.next.inj h
    exact callTo_keeps s _ _
  | ret =>
    obtain rfl := Host.Outcome.next.inj h
    exact popPc_keeps s
  | cccc =>
    obtain rfl := Host.Outcome.next.inj h
    split
    · exact callTo_keeps s _ _
    · exact .of_frame rfl rfl rfl
  | rccc =>
    obtain rfl := Host.Outcome.next.inj h
    split
    · exact popPc_keeps s
    · exact .of_frame rfl rfl rfl
  -- ports, the serial input and output
  | inPort =>
    obtain rfl := Host.Outcome.next.inj h
    exact (ioRead_keeps s _).then_frame rfl rfl rfl
  | outPort =>
    obtain rfl := Host.Outcome.next.inj h
    exact (record_keeps s _).advance
  | rim =>
    obtain rfl := Host.Outcome.next.inj h
    exact (serialIn_keeps s).then_frame rfl rfl rfl
  | sim =>
    obtain rfl := Host.Outcome.next.inj h
    have hctl : Keeps s { s with ctl := s.ctl.program s.regs.a } := .of_frame rfl rfl rfl
    exact (hctl.trans (recordSod_keeps _ _)).advance
  -- registers, SP, PC, flags and control state alone
  | lxi | inx | dcx =>
    obtain rfl := Host.Outcome.next.inj h
    exact (Keeps.refl s).setPair.advance
  | jccc =>
    obtain rfl := Host.Outcome.next.inj h
    split <;> exact .of_frame rfl rfl rfl
  | _ =>
    obtain rfl := Host.Outcome.next.inj h
    exact .of_frame rfl rfl rfl

theorem fetch_keeps {i : Instr} {s t : State} (h : fetch s = .ok (i, t)) : Keeps s t := by
  simp only [fetch] at h
  split at h
  · cases h
  all_goals obtain ⟨-, rfl⟩ := Prod.mk.inj (Except.ok.inj h)
  · exact read8_keeps s s.pc
  · exact (read8_keeps s s.pc).trans (read8_keeps _ _)
  · exact (read8_keeps s s.pc).trans (read16_keeps _ _)

theorem atBoundary_keeps (s : State) : Keeps s s.atBoundary :=
  .of_frame rfl rfl rfl

/-- The reset input drops every cell but those of ROM, and appends the fall of SOD at most (R262, log 13). -/
theorem onReset_keeps (s : State) : Keeps s s.onReset := by
  have hforce : Keeps s s.forceReset := by
    refine ⟨rfl, List.prefix_rfl, fun a ha => ?_⟩
    refine Memory.get_filter s.mem (fun n => kindIn s.params.memMap (BitVec.ofNat 16 n) == .rom) a.toNat ?_
    rw [BitVec.ofNat_toNat, BitVec.setWidth_eq]
    exact beq_iff_eq.mpr ha
  exact hforce.trans (recordSod_keeps _ _)

/-- Interrupt entry is a call, behind a change of the control state. -/
theorem takeInterrupt_keeps {k : Source} {s t : State} (h : takeInterrupt k s = .next t) : Keeps s t := by
  obtain ⟨c, target, rfl, -⟩ := takeInterrupt_next h
  have hctl : Keeps s { s with ctl := { c with halted := false, inte := false } } := .of_frame rfl rfl rfl
  exact hctl.trans (callTo_keeps _ _ target)

theorem step_keeps {s t : State} (h : step s = .next t) : Keeps s t := by
  refine (atBoundary_keeps s).trans ?_
  obtain ⟨-, rfl⟩ | ⟨k, -, -, hk⟩ | ⟨-, -, -, rfl⟩ | ⟨-, i, u, hf, he⟩ := step_cases h
  · exact onReset_keeps _
  · exact takeInterrupt_keeps hk
  · exact .refl _
  · exact (fetch_keeps hf).trans (exec_keeps he)

/-- Settles O58: ROM is part of what every step keeps. -/
theorem romNeverChanges : Obligations.RomNeverChanges :=
  fun _ _ a h => (step_keeps h).rom a

/-- Settles O53: so are the parameters and the recorded events. -/
theorem historyGrowsAndParametersStay : Obligations.HistoryGrowsAndParametersStay := by
  intro s t h
  obtain ⟨hparams, ⟨events, hevents⟩, -⟩ := step_keeps h
  exact ⟨⟨events, hevents.symm⟩, hparams⟩

/-- Settles O57: memory as a whole stays, and so does each cell. -/
theorem memoryWriters : Obligations.MemoryWriters :=
  fun _ _ _ h hw => State.cell_congr (exec_mem_of_not_storesMemory h hw)

end Sys2Proof.Machine

/-! The fetch reads what memory holds (R51, R63): O5 and O60. -/

namespace Sys2Proof.Machine

/-- What decodes is an opcode byte with the operand bytes of its format (R80, R84). -/
theorem decode_ok_cases {bytes rest : List Byte} {i : Instr} (h : decode bytes = .ok (i, rest)) :
    (∃ op, bytes = op :: rest ∧ decodeOpcode op = some (.b1 i)) ∨
    (∃ op f imm, bytes = op :: imm :: rest ∧ decodeOpcode op = some (.b2 f) ∧ i = f imm) ∨
    (∃ op f lo hi, bytes = op :: lo :: hi :: rest ∧ decodeOpcode op = some (.b3 f) ∧ i = f (joinBytes hi lo)) := by
  cases bytes with
  | nil => cases h
  | cons op tail =>
    simp only [decode] at h
    split at h
    · cases h
    · next hop =>
      obtain ⟨rfl, rfl⟩ := Prod.mk.inj (Except.ok.inj h)
      exact .inl ⟨op, rfl, hop⟩
    · next f imm _ hop =>
      obtain ⟨rfl, rfl⟩ := Prod.mk.inj (Except.ok.inj h)
      exact .inr (.inl ⟨op, f, imm, rfl, hop, rfl⟩)
    · next f lo hi _ hop =>
      obtain ⟨rfl, rfl⟩ := Prod.mk.inj (Except.ok.inj h)
      exact .inr (.inr ⟨op, f, lo, hi, rfl, hop, rfl⟩)
    · cases h

/-- The bytes stand in RAM or ROM from PC on, modulo 2^16 (R51, R52). -/
def HoldsAtPc (s : State) (bytes : List Byte) : Prop :=
  ∀ (k : Nat) (h : k < bytes.length), Holds s (s.pc + BitVec.ofNat 16 k) bytes[k]

theorem holdsAtPc_head {s : State} {v : Byte} {rest : List Byte} (h : HoldsAtPc s (v :: rest)) : Holds s s.pc v := by
  have hv : Holds s (s.pc + BitVec.ofNat 16 0) v := h 0 (by simp)
  rwa [BitVec.add_zero] at hv

theorem holdsAtPc_singleton {s : State} {v : Byte} (h : Holds s s.pc v) : HoldsAtPc s [v] := by
  intro k hk
  obtain rfl : k = 0 := by simpa using hk
  rwa [BitVec.add_zero]

theorem HoldsAtPc.read_opcode {s : State} {op : Byte} {rest : List Byte} (h : HoldsAtPc s (op :: rest)) :
    s.read8 s.pc = (op, s) :=
  read8_of_holds s s.pc op (holdsAtPc_head h)

theorem HoldsAtPc.read_operand {s : State} {op v : Byte} {rest : List Byte} (h : HoldsAtPc s (op :: v :: rest)) :
    s.read8 (s.pc + 1) = (v, s) :=
  read8_of_holds s (s.pc + 1) v (h 1 (by simp))

theorem HoldsAtPc.read_word {s : State} {op lo hi : Byte} {rest : List Byte}
    (h : HoldsAtPc s (op :: lo :: hi :: rest)) : s.read16 (s.pc + 1) = (joinBytes hi lo, s) := by
  have hpc : s.pc + 1 + 1 = s.pc + 2 := by bv_omega
  have hhi : s.read8 (s.pc + 2) = (hi, s) := read8_of_holds s (s.pc + 2) hi (h 2 (by simp))
  simp only [State.read16, h.read_operand, hpc, hhi]

/-- The instruction whose bytes stand at PC is what the fetch gives, and the fetch changes nothing. -/
theorem fetch_of_decode {s : State} {bytes : List Byte} {i : Instr} (hd : decode bytes = .ok (i, []))
    (hb : HoldsAtPc s bytes) : fetch s = .ok (i, s) := by
  obtain ⟨op, rfl, hop⟩ | ⟨op, f, imm, rfl, hop, rfl⟩ | ⟨op, f, lo, hi, rfl, hop, rfl⟩ := decode_ok_cases hd
  · simp only [fetch, hb.read_opcode, hop]
  · simp only [fetch, hb.read_opcode, hop, hb.read_operand]
  · simp only [fetch, hb.read_opcode, hop, hb.read_word]

/-- A boundary that takes nothing runs the instruction at PC (R238 step 4). -/
theorem step_of_executesNext {s : State} (h : s.executesNext) : step s = runInstruction s.atBoundary := by
  obtain ⟨hreset, hnone, hhalted⟩ := h
  have hb : s.atBoundary.ctl.halted = false := hhalted
  simp only [step, hreset, hnone, hb, Bool.false_eq_true, if_false]

/-- Settles O5: the boundary leaves PC, memory and the map, so the fetch finds the same bytes there. -/
theorem stepRunsDecodedInstruction : Obligations.StepRunsDecodedInstruction := by
  intro s bytes i hs hd hb
  have hfetch : fetch s.atBoundary = .ok (i, s.atBoundary) := fetch_of_decode hd hb
  rw [step_of_executesNext hs, runInstruction, hfetch]

/-- A byte stored in RAM is held there. -/
theorem write8_holds_of_ram {s : State} {a : Word} (v : Byte) (h : s.kindAt a = .ram) : Holds (s.write8 a v) a v := by
  have hstored := write8_stores s a v
  simp only [Stores, h] at hstored
  exact ⟨.inl ((State.kindAt_congr (write8_params s a v) a).trans h), hstored.1⟩

/-- Settles O60: the byte stored behind the STA is held at the new PC, and O5 says what a step does there. -/
theorem storeSeenByNextFetch : Obligations.StoreSeenByNextFetch := by
  intro s i hram hd
  refine ⟨_, rfl, fun ht => stepRunsDecodedInstruction _ [s.regs.a] i ht hd (holdsAtPc_singleton ?_)⟩
  rw [State.advance_pc, write8_pc]
  exact write8_holds_of_ram s.regs.a hram

end Sys2Proof.Machine

/-! Decoding and encoding agree, in both directions: O1 to O4. -/

namespace Sys2Proof

open Machine

/-! ## From an opcode byte to a list of bytes (R80, R84) -/

theorem decode_of_b1 {op : Byte} {i : Instr} (rest : List Byte) (h : decodeOpcode op = some (.b1 i)) :
    decode (op :: rest) = .ok (i, rest) := by
  simp only [decode, h]

theorem decode_of_b2 {op : Byte} {f : Byte → Instr} (v : Byte) (rest : List Byte)
    (h : decodeOpcode op = some (.b2 f)) : decode (op :: v :: rest) = .ok (f v, rest) := by
  simp only [decode, h]

theorem decode_of_b3 {op : Byte} {f : Word → Instr} (v : Word) (rest : List Byte)
    (h : decodeOpcode op = some (.b3 f)) : decode (withWord op v ++ rest) = .ok (f v, rest) := by
  simp only [withWord, List.cons_append, List.nil_append, decode, h, joinBytes_hi_lo]

/-! ## Decoding what is encoded -/

theorem decodeOpcode_movRR (dst src : Reg8) :
    decodeOpcode (packOpcode 0b01 dst.code src.code) = some (.b1 (.movRR dst src)) := by
  cases dst <;> cases src <;> rfl

theorem decodeOpcode_rst (n : BitVec 3) : decodeOpcode (packOpcode 0b11 n 0b111) = some (.b1 (.rst n)) := by
  have hn : n = 0 ∨ n = 1 ∨ n = 2 ∨ n = 3 ∨ n = 4 ∨ n = 5 ∨ n = 6 ∨ n = 7 := by revert n; decide
  obtain rfl | rfl | rfl | rfl | rfl | rfl | rfl | rfl := hn <;> rfl

/-- Settles O1: the opcode byte selects the instruction's own row for each value of its register, pair, condition or
restart field, and the operand bytes are joined again. The terms that R89 excludes are the ill-formed ones. -/
theorem decodeOfEncode : Obligations.DecodeOfEncode := by
  intro i rest hwf
  cases i with
  -- a field in the opcode byte
  | movRR dst src => exact decode_of_b1 rest (decodeOpcode_movRR dst src)
  | movRM r | movMR r | addR r | adcR r | subR r | sbbR r | inrR r | dcrR r | cmpR r | anaR r | xraR r | oraR r =>
    exact decode_of_b1 rest (by cases r <;> rfl)
  | mviR r v => exact decode_of_b2 v rest (by cases r <;> rfl)
  | inx rp | dcx rp | dad rp => exact decode_of_b1 rest (by cases rp <;> rfl)
  | lxi rp v => exact decode_of_b3 v rest (by cases rp <;> rfl)
  | rccc cc => exact decode_of_b1 rest (by cases cc <;> rfl)
  | jccc cc v | cccc cc v => exact decode_of_b3 v rest (by cases cc <;> rfl)
  | rst n => exact decode_of_b1 rest (decodeOpcode_rst n)
  -- a pair that R89 restricts
  | ldax rp | stax rp =>
    cases rp with
    | b | d => exact decode_of_b1 rest rfl
    | h | sp => cases hwf
  | pushRp rp | popRp rp =>
    cases rp with
    | b | d | h => exact decode_of_b1 rest rfl
    | sp => cases hwf
  -- a fixed opcode byte
  | mviM v | adi v | aci v | sui v | sbi v | cpi v | ani v | xri v | ori v | inPort v | outPort v =>
    exact decode_of_b2 v rest rfl
  | lda v | sta v | lhld v | shld v | jmp v | call v => exact decode_of_b3 v rest rfl
  | _ => exact decode_of_b1 rest rfl

/-- Settles O4: the sixteen strings are the encodings of sixteen well-formed instructions, and O1 decodes them. -/
theorem sampleWordsDecode : Obligations.SampleWordsDecode :=
  ⟨decodeOfEncode (.movRR .a .b) [] rfl, decodeOfEncode (.movRM .c) [] rfl,
    decodeOfEncode (.lxi .h 0x2050) [] rfl, decodeOfEncode (.lhld 0x2200) [] rfl,
    decodeOfEncode (.sbbR .l) [] rfl, decodeOfEncode .inrM [] rfl, decodeOfEncode (.dad .sp) [] rfl,
    decodeOfEncode (.xri 0x81) [] rfl, decodeOfEncode .rar [] rfl, decodeOfEncode (.cccc .c 0x3000) [] rfl,
    decodeOfEncode (.rst 5) [] rfl, decodeOfEncode (.pushRp .d) [] rfl, decodeOfEncode .pushPsw [] rfl,
    decodeOfEncode (.outPort 0x10) [] rfl, decodeOfEncode .hlt [] rfl, decodeOfEncode .sim [] rfl⟩

theorem code_pairOfCode (c : BitVec 2) : (pairOfCode c).code = c := by
  revert c; decide

theorem code_condOfCode (c : BitVec 3) : (condOfCode c).code = c := by
  revert c; decide

theorem eq_code_of_regOfCode {c : BitVec 3} {r : Reg8} (h : regOfCode c = some r) : c = r.code := by
  cases r <;> revert c <;> decide

theorem indexPairOfCode_eq_some {c : BitVec 2} {rp : RegPair} (h : indexPairOfCode c = some rp) :
    rp.isIndex = true ∧ rp.code = c := by
  obtain ⟨hpair, hrp⟩ := Option.ite_none_right_eq_some.mp h
  obtain rfl := Option.some.inj hrp
  exact ⟨hpair, code_pairOfCode c⟩

theorem pushPairOfCode_eq_some {c : BitVec 2} {rp : RegPair} (h : pushPairOfCode c = some rp) :
    rp.isPushable = true ∧ rp.code = c := by
  obtain ⟨hpair, hrp⟩ := Option.ite_none_right_eq_some.mp h
  obtain rfl := Option.some.inj hrp
  exact ⟨hpair, code_pairOfCode c⟩

/-! ## The fields of an opcode byte (R81, R82) -/

/-- The fixed bits 7:6. -/
def fieldTop (op : Byte) : BitVec 2 := op.extractLsb' 6 2

/-- The fixed bits 3:0 of the pair formats. -/
def fieldNibble (op : Byte) : BitVec 4 := op.extractLsb' 0 4

theorem packOpcode_fields (op : Byte) : packOpcode (fieldTop op) (fieldMid op) (fieldLow op) = op := by
  revert op; decide

theorem packPairOpcode_fields (op : Byte) : packPairOpcode (fieldTop op) (fieldPair op) (fieldNibble op) = op := by
  revert op; decide

/-- A concatenation has one pair of parts. -/
theorem append_inj {v w : Nat} {x x' : BitVec v} {y y' : BitVec w} (h : x ++ y = x' ++ y') : x = x' ∧ y = y' := by
  have hlow := congrArg (BitVec.extractLsb' 0 w) h
  rw [BitVec.extractLsb'_append_eq_right, BitVec.extractLsb'_append_eq_right] at hlow
  subst hlow
  exact ⟨(BitVec.append_left_inj y).mp h, rfl⟩

theorem packOpcode_inj {top top' : BitVec 2} {mid mid' low low' : BitVec 3}
    (h : packOpcode top mid low = packOpcode top' mid' low') : top = top' ∧ mid = mid' ∧ low = low' := by
  obtain ⟨h', hlow⟩ := append_inj h
  obtain ⟨htop, hmid⟩ := append_inj h'
  exact ⟨htop, hmid, hlow⟩

theorem packPairOpcode_inj {top top' pp pp' : BitVec 2} {low low' : BitVec 4}
    (h : packPairOpcode top pp low = packPairOpcode top' pp' low') : top = top' ∧ pp = pp' ∧ low = low' := by
  obtain ⟨h', hlow⟩ := append_inj h
  obtain ⟨htop, hpp⟩ := append_inj h'
  exact ⟨htop, hpp, hlow⟩

theorem and_packOpcode (op : Byte) (top : BitVec 2) (mid low : BitVec 3) :
    op &&& packOpcode top mid low = packOpcode (fieldTop op &&& top) (fieldMid op &&& mid) (fieldLow op &&& low) := by
  conv_lhs => rw [← packOpcode_fields op]
  exact BitVec.and_append.trans (congrArg (· ++ (fieldLow op &&& low)) BitVec.and_append)

theorem and_packPairOpcode (op : Byte) (top pp : BitVec 2) (low : BitVec 4) :
    op &&& packPairOpcode top pp low =
      packPairOpcode (fieldTop op &&& top) (fieldPair op &&& pp) (fieldNibble op &&& low) := by
  conv_lhs => rw [← packPairOpcode_fields op]
  exact BitVec.and_append.trans (congrArg (· ++ (fieldNibble op &&& low)) BitVec.and_append)

/-! ## A byte under a row's mask: the fixed bits are the pattern's, the open ones the byte's own (R88) -/

theorem eq_packOpcode_low {op : Byte} {top : BitVec 2} {mid : BitVec 3} (h : op &&& 0xF8 = packOpcode top mid 0) :
    op = packOpcode top mid (fieldLow op) := by
  obtain ⟨htop, hmid, -⟩ := packOpcode_inj ((and_packOpcode op (.allOnes 2) (.allOnes 3) 0).symm.trans h)
  rw [BitVec.and_allOnes] at htop hmid
  rw [← htop, ← hmid, packOpcode_fields]


theorem eq_packOpcode_mid {op : Byte} {top : BitVec 2} {low : BitVec 3} (h : op &&& 0xC7 = packOpcode top 0 low) :
    op = packOpcode top (fieldMid op) low := by
  obtain ⟨htop, -, hlow⟩ := packOpcode_inj ((and_packOpcode op (.allOnes 2) 0 (.allOnes 3)).symm.trans h)
  rw [BitVec.and_allOnes] at htop hlow
  rw [← htop, ← hlow, packOpcode_fields]

theorem eq_packOpcode_mid_low {op : Byte} {top : BitVec 2} (h : op &&& 0xC0 = packOpcode top 0 0) :
    op = packOpcode top (fieldMid op) (fieldLow op) := by
  obtain ⟨htop, -, -⟩ := packOpcode_inj ((and_packOpcode op (.allOnes 2) 0 0).symm.trans h)
  rw [BitVec.and_allOnes] at htop
  rw [← htop, packOpcode_fields]

theorem eq_packPairOpcode {op : Byte} {top : BitVec 2} {low : BitVec 4} (h : op &&& 0xCF = packPairOpcode top 0 low) :
    op = packPairOpcode top (fieldPair op) low := by
  obtain ⟨htop, -, hlow⟩ := packPairOpcode_inj ((and_packPairOpcode op (.allOnes 2) 0 (.allOnes 4)).symm.trans h)
  rw [BitVec.and_allOnes] at htop hlow
  rw [← htop, ← hlow, packPairOpcode_fields]

/-! ## What each kind of row selects -/

/-- What the opcode byte selects is well-formed and encoded by that byte and its operand bytes, whatever they are. -/
def Selected.Encodes (op : Byte) : Selected → Prop
  | .b1 i => i.wellFormed = true ∧ encode i = [op]
  | .b2 f => ∀ v, (f v).wellFormed = true ∧ encode (f v) = [op, v]
  | .b3 f => ∀ v, (f v).wellFormed = true ∧ encode (f v) = withWord op v

/-- Whatever the row selects is encoded by the byte that selects it. -/
def OpcodeRow.Sound (r : OpcodeRow) : Prop := ∀ op sel, r.select op = some sel → sel.Encodes op

theorem OpcodeRow.select_eq_some_iff {r : OpcodeRow} {op : Byte} {sel : Selected} :
    r.select op = some sel ↔ op &&& r.mask = r.pattern ∧ r.build op = some sel :=
  Option.ite_none_right_eq_some

theorem fixedRow_sound {pattern : Byte} {sel : Selected} (hsel : sel.Encodes pattern) :
    (fixedRow pattern sel).Sound := by
  intro op sel' h
  obtain ⟨hmask, hbuild⟩ := OpcodeRow.select_eq_some_iff.mp h
  obtain rfl : op = pattern := BitVec.and_allOnes.symm.trans hmask
  obtain rfl := Option.some.inj hbuild
  exact hsel

theorem lowRegRow_sound {pattern : Byte} {f : Reg8 → Instr} (top : BitVec 2) (mid : BitVec 3)
    (hpattern : pattern = packOpcode top mid 0) (hf : ∀ r, (Selected.b1 (f r)).Encodes (packOpcode top mid r.code)) :
    (lowRegRow pattern f).Sound := by
  intro op sel h
  obtain ⟨hmask, hbuild⟩ := OpcodeRow.select_eq_some_iff.mp h
  obtain ⟨r, hr, rfl⟩ := Option.map_eq_some_iff.mp hbuild
  rw [eq_packOpcode_low (hmask.trans hpattern), eq_code_of_regOfCode hr]
  exact hf r

theorem midRegRow_sound {pattern : Byte} {f : Reg8 → Selected} (top : BitVec 2) (low : BitVec 3)
    (hpattern : pattern = packOpcode top 0 low) (hf : ∀ r, (f r).Encodes (packOpcode top r.code low)) :
    (midRegRow pattern f).Sound := by
  intro op sel h
  obtain ⟨hmask, hbuild⟩ := OpcodeRow.select_eq_some_iff.mp h
  obtain ⟨r, hr, rfl⟩ := Option.map_eq_some_iff.mp hbuild
  rw [eq_packOpcode_mid (hmask.trans hpattern), eq_code_of_regOfCode hr]
  exact hf r

theorem condRow_sound {pattern : Byte} {f : Cond → Selected} (top : BitVec 2) (low : BitVec 3)
    (hpattern : pattern = packOpcode top 0 low) (hf : ∀ cc, (f cc).Encodes (packOpcode top cc.code low)) :
    (condRow pattern f).Sound := by
  intro op sel h
  obtain ⟨hmask, hbuild⟩ := OpcodeRow.select_eq_some_iff.mp h
  obtain rfl := Option.some.inj hbuild
  have hsel := hf (condOfCode (fieldMid op))
  rwa [code_condOfCode, ← eq_packOpcode_mid (hmask.trans hpattern)] at hsel

theorem pairRow_sound {pattern : Byte} {f : RegPair → Selected} (top : BitVec 2) (low : BitVec 4)
    (hpattern : pattern = packPairOpcode top 0 low) (hf : ∀ rp, (f rp).Encodes (packPairOpcode top rp.code low)) :
    (pairRow pattern f).Sound := by
  intro op sel h
  obtain ⟨hmask, hbuild⟩ := OpcodeRow.select_eq_some_iff.mp h
  obtain rfl := Option.some.inj hbuild
  have hsel := hf (pairOfCode (fieldPair op))
  rwa [code_pairOfCode, ← eq_packPairOpcode (hmask.trans hpattern)] at hsel

/-- A row whose pair is restricted, as those of LDAX, STAX, PUSH and POP are (R89). -/
theorem restrictedPairRow_sound {pattern : Byte} {pairOf : BitVec 2 → Option RegPair} {f : RegPair → Instr}
    (top : BitVec 2) (low : BitVec 4) (hpattern : pattern = packPairOpcode top 0 low)
    (hf : ∀ c rp, pairOf c = some rp → (Selected.b1 (f rp)).Encodes (packPairOpcode top c low)) :
    OpcodeRow.Sound ⟨0xCF, pattern, fun op => (pairOf (fieldPair op)).map fun rp => .b1 (f rp)⟩ := by
  intro op sel h
  obtain ⟨hmask, hbuild⟩ := OpcodeRow.select_eq_some_iff.mp h
  obtain ⟨rp, hrp, rfl⟩ := Option.map_eq_some_iff.mp hbuild
  have hsel := hf (fieldPair op) rp hrp
  rwa [← eq_packPairOpcode (hmask.trans hpattern)] at hsel

/-! ## The rows of MOV r1,r2, RST and the restricted pairs -/

theorem movRRRow_sound : OpcodeRow.Sound ⟨0xC0, 0x40, fun op =>
    match regOfCode (fieldMid op), regOfCode (fieldLow op) with
    | some dst, some src => some (.b1 (.movRR dst src))
    | _, _ => none⟩ := by
  intro op sel h
  obtain ⟨hmask, hbuild⟩ := OpcodeRow.select_eq_some_iff.mp h
  have hop : op = packOpcode 0b01 (fieldMid op) (fieldLow op) := eq_packOpcode_mid_low hmask
  dsimp only at hbuild
  split at hbuild
  · next dst src hdst hsrc =>
    obtain rfl := Option.some.inj hbuild
    rw [hop, eq_code_of_regOfCode hdst, eq_code_of_regOfCode hsrc]
    exact ⟨rfl, rfl⟩
  · cases hbuild

theorem rstRow_sound : OpcodeRow.Sound ⟨0xC7, 0xC7, fun op => some (.b1 (.rst (fieldMid op)))⟩ := by
  intro op sel h
  obtain ⟨hmask, hbuild⟩ := OpcodeRow.select_eq_some_iff.mp h
  obtain rfl := Option.some.inj hbuild
  have hop : op = packOpcode 0b11 (fieldMid op) 0b111 := eq_packOpcode_mid hmask
  exact ⟨rfl, congrArg (fun b => [b]) hop.symm⟩

theorem indexPairRow_sound {pattern : Byte} {f : RegPair → Instr} (top : BitVec 2) (low : BitVec 4)
    (hpattern : pattern = packPairOpcode top 0 low)
    (hf : ∀ rp, rp.isIndex = true → (Selected.b1 (f rp)).Encodes (packPairOpcode top rp.code low)) :
    OpcodeRow.Sound ⟨0xCF, pattern, fun op => (indexPairOfCode (fieldPair op)).map fun rp => .b1 (f rp)⟩ := by
  refine restrictedPairRow_sound top low hpattern fun c rp h => ?_
  obtain ⟨hrp, rfl⟩ := indexPairOfCode_eq_some h
  exact hf rp hrp

theorem pushPairRow_sound {pattern : Byte} {f : RegPair → Instr} (top : BitVec 2) (low : BitVec 4)
    (hpattern : pattern = packPairOpcode top 0 low)
    (hf : ∀ rp, rp.isPushable = true → (Selected.b1 (f rp)).Encodes (packPairOpcode top rp.code low)) :
    OpcodeRow.Sound ⟨0xCF, pattern, fun op => (pushPairOfCode (fieldPair op)).map fun rp => .b1 (f rp)⟩ := by
  refine restrictedPairRow_sound top low hpattern fun c rp h => ?_
  obtain ⟨hrp, rfl⟩ := pushPairOfCode_eq_some h
  exact hf rp hrp

/-! ## Every row of the table (R88)

In the order of the table: the pattern of each row is its fixed bits (the first `rfl`), and `encode` packs the same bits
with the operand's code. -/

theorem transferRows_sound : ∀ r ∈ transferRows, r.Sound := by
  simp only [transferRows, List.forall_mem_cons]
  exact ⟨movRRRow_sound,
    midRegRow_sound 0b01 0b110 rfl fun _ => ⟨rfl, rfl⟩,
    lowRegRow_sound 0b01 0b110 rfl fun _ => ⟨rfl, rfl⟩,
    midRegRow_sound 0b00 0b110 rfl fun _ _ => ⟨rfl, rfl⟩, fixedRow_sound fun _ => ⟨rfl, rfl⟩,
    pairRow_sound 0b00 0b0001 rfl fun _ _ => ⟨rfl, rfl⟩,
    fixedRow_sound fun _ => ⟨rfl, rfl⟩, fixedRow_sound fun _ => ⟨rfl, rfl⟩,
    fixedRow_sound fun _ => ⟨rfl, rfl⟩, fixedRow_sound fun _ => ⟨rfl, rfl⟩,
    indexPairRow_sound 0b00 0b1010 rfl fun _ h => ⟨h, rfl⟩,
    indexPairRow_sound 0b00 0b0010 rfl fun _ h => ⟨h, rfl⟩,
    fixedRow_sound ⟨rfl, rfl⟩,
    nofun⟩

theorem arithmeticRows_sound : ∀ r ∈ arithmeticRows, r.Sound := by
  simp only [arithmeticRows, List.forall_mem_cons]
  exact ⟨lowRegRow_sound 0b10 0b000 rfl fun _ => ⟨rfl, rfl⟩, fixedRow_sound ⟨rfl, rfl⟩,
    fixedRow_sound fun _ => ⟨rfl, rfl⟩,
    lowRegRow_sound 0b10 0b001 rfl fun _ => ⟨rfl, rfl⟩, fixedRow_sound ⟨rfl, rfl⟩, fixedRow_sound fun _ => ⟨rfl, rfl⟩,
    lowRegRow_sound 0b10 0b010 rfl fun _ => ⟨rfl, rfl⟩, fixedRow_sound ⟨rfl, rfl⟩, fixedRow_sound fun _ => ⟨rfl, rfl⟩,
    lowRegRow_sound 0b10 0b011 rfl fun _ => ⟨rfl, rfl⟩, fixedRow_sound ⟨rfl, rfl⟩, fixedRow_sound fun _ => ⟨rfl, rfl⟩,
    midRegRow_sound 0b00 0b100 rfl fun _ => ⟨rfl, rfl⟩, fixedRow_sound ⟨rfl, rfl⟩,
    midRegRow_sound 0b00 0b101 rfl fun _ => ⟨rfl, rfl⟩, fixedRow_sound ⟨rfl, rfl⟩,
    pairRow_sound 0b00 0b0011 rfl fun _ => ⟨rfl, rfl⟩,
    pairRow_sound 0b00 0b1011 rfl fun _ => ⟨rfl, rfl⟩,
    pairRow_sound 0b00 0b1001 rfl fun _ => ⟨rfl, rfl⟩,
    fixedRow_sound ⟨rfl, rfl⟩,
    lowRegRow_sound 0b10 0b111 rfl fun _ => ⟨rfl, rfl⟩, fixedRow_sound ⟨rfl, rfl⟩, fixedRow_sound fun _ => ⟨rfl, rfl⟩,
    nofun⟩

theorem logicalRows_sound : ∀ r ∈ logicalRows, r.Sound := by
  simp only [logicalRows, List.forall_mem_cons]
  exact ⟨lowRegRow_sound 0b10 0b100 rfl fun _ => ⟨rfl, rfl⟩, fixedRow_sound ⟨rfl, rfl⟩,
    fixedRow_sound fun _ => ⟨rfl, rfl⟩,
    lowRegRow_sound 0b10 0b101 rfl fun _ => ⟨rfl, rfl⟩, fixedRow_sound ⟨rfl, rfl⟩, fixedRow_sound fun _ => ⟨rfl, rfl⟩,
    lowRegRow_sound 0b10 0b110 rfl fun _ => ⟨rfl, rfl⟩, fixedRow_sound ⟨rfl, rfl⟩, fixedRow_sound fun _ => ⟨rfl, rfl⟩,
    fixedRow_sound ⟨rfl, rfl⟩,
    fixedRow_sound ⟨rfl, rfl⟩, fixedRow_sound ⟨rfl, rfl⟩, fixedRow_sound ⟨rfl, rfl⟩, fixedRow_sound ⟨rfl, rfl⟩,
    fixedRow_sound ⟨rfl, rfl⟩, fixedRow_sound ⟨rfl, rfl⟩,
    nofun⟩

theorem branchRows_sound : ∀ r ∈ branchRows, r.Sound := by
  simp only [branchRows, List.forall_mem_cons]
  exact ⟨fixedRow_sound fun _ => ⟨rfl, rfl⟩, condRow_sound 0b11 0b010 rfl fun _ _ => ⟨rfl, rfl⟩,
    fixedRow_sound fun _ => ⟨rfl, rfl⟩, condRow_sound 0b11 0b100 rfl fun _ _ => ⟨rfl, rfl⟩,
    fixedRow_sound ⟨rfl, rfl⟩, condRow_sound 0b11 0b000 rfl fun _ => ⟨rfl, rfl⟩,
    rstRow_sound,
    fixedRow_sound ⟨rfl, rfl⟩,
    nofun⟩

theorem systemRows_sound : ∀ r ∈ systemRows, r.Sound := by
  simp only [systemRows, List.forall_mem_cons]
  exact ⟨pushPairRow_sound 0b11 0b0101 rfl fun _ h => ⟨h, rfl⟩, fixedRow_sound ⟨rfl, rfl⟩,
    pushPairRow_sound 0b11 0b0001 rfl fun _ h => ⟨h, rfl⟩, fixedRow_sound ⟨rfl, rfl⟩,
    fixedRow_sound ⟨rfl, rfl⟩, fixedRow_sound ⟨rfl, rfl⟩,
    fixedRow_sound fun _ => ⟨rfl, rfl⟩, fixedRow_sound fun _ => ⟨rfl, rfl⟩,
    fixedRow_sound ⟨rfl, rfl⟩, fixedRow_sound ⟨rfl, rfl⟩, fixedRow_sound ⟨rfl, rfl⟩, fixedRow_sound ⟨rfl, rfl⟩,
    fixedRow_sound ⟨rfl, rfl⟩, fixedRow_sound ⟨rfl, rfl⟩,
    nofun⟩

theorem opcodeRows_sound : ∀ r ∈ opcodeRows, r.Sound := by
  simp only [opcodeRows, List.forall_mem_append]
  exact ⟨⟨⟨⟨transferRows_sound, arithmeticRows_sound⟩, logicalRows_sound⟩, branchRows_sound⟩, systemRows_sound⟩

/-- What an opcode byte selects is encoded by that byte. -/
theorem decodeOpcode_encodes {op : Byte} {sel : Selected} (h : decodeOpcode op = some sel) : sel.Encodes op := by
  obtain ⟨r, hr, hsel⟩ := List.exists_of_findSome?_eq_some h
  exact opcodeRows_sound r hr op sel hsel

theorem withWord_joinBytes (op lo hi : Byte) : withWord op (joinBytes hi lo) = [op, lo, hi] := by
  rw [withWord, loByte_joinBytes, hiByte_joinBytes]

/-- Settles O2: the bytes are an opcode byte and the operand bytes of its format, and its row is sound. -/
theorem encodeOfDecode : Obligations.EncodeOfDecode := by
  intro bytes rest i h
  obtain ⟨op, rfl, hop⟩ | ⟨op, f, v, rfl, hop, rfl⟩ | ⟨op, f, lo, hi, rfl, hop, rfl⟩ := decode_ok_cases h
  · obtain ⟨hwf, henc⟩ := decodeOpcode_encodes hop
    exact ⟨hwf, by rw [henc]; rfl⟩
  · obtain ⟨hwf, henc⟩ := decodeOpcode_encodes hop v
    exact ⟨hwf, by rw [henc]; rfl⟩
  · obtain ⟨hwf, henc⟩ := decodeOpcode_encodes hop (joinBytes hi lo)
    exact ⟨hwf, by rw [henc, withWord_joinBytes]; rfl⟩

/-! ## The opcode map (R91, R93) -/

/-- R91 over the 256 bytes: the ten select no row, and every other byte one. -/
theorem opcodeRows_selecting_length (op : Byte) : (opcodeRows.filter fun r => (r.select op).isSome).length =
    if op ∈ unassignedBytes then 0 else 1 := by
  revert op; decide

/-- R93 over the 256 bytes: the length by the byte alone is that of what it selects. -/
theorem decodeOpcode_length (op : Byte) : (decodeOpcode op).map Selected.length = opcodeLength op := by
  revert op; decide

/-- Settles O3: the rows are counted, and the other two parts are the maps of R91 and R93. -/
theorem opcodeByteSelectsOneRowAndLength : Obligations.OpcodeByteSelectsOneRowAndLength :=
  ⟨rfl, fun op => ⟨opcodeRows_selecting_length op, decodeOpcode_length op⟩⟩

theorem opcodeLength_eq_none_iff (op : Byte) : opcodeLength op = none ↔ op ∈ unassignedBytes := by
  unfold opcodeLength
  split
  · next h => exact iff_of_true rfl h
  · next h =>
    refine iff_of_false ?_ h
    repeat' split
    all_goals exact nofun

/-- The bytes that select nothing are the ten of R91. -/
theorem decodeOpcode_eq_none_iff (op : Byte) : decodeOpcode op = none ↔ op ∈ unassignedBytes := by
  rw [← opcodeLength_eq_none_iff, ← decodeOpcode_length, Option.map_eq_none_iff]

end Sys2Proof

/-! What a step refuses: O6. -/

namespace Sys2Proof.Machine

/-- Every instruction completes (R230): each meaning ends in a next state. -/
theorem exec_eq_next (i : Instr) (s : State) : ∃ t, exec i s = .next t := by
  cases i <;> exact ⟨_, rfl⟩

/-- The fetch refuses an opcode byte that no row selects, and nothing else. -/
theorem fetch_error {s : State} {r : Refusal} (h : fetch s = .error r) :
    ∃ op ∈ unassignedBytes, r = .illegalOpcode op s.pc := by
  simp only [fetch] at h
  split at h
  · next hop => exact ⟨_, (decodeOpcode_eq_none_iff _).mp hop, (Except.error.inj h).symm⟩
  all_goals cases h

theorem fetch_of_unassigned {s : State} {op : Byte} (hop : op ∈ unassignedBytes) (hb : Holds s s.pc op) :
    fetch s = .error (.illegalOpcode op s.pc) := by
  simp only [fetch, read8_of_holds s s.pc op hb, (decodeOpcode_eq_none_iff op).mpr hop]

theorem runInstruction_refused {s : State} {r : Refusal} (h : runInstruction s = .refused r) : fetch s = .error r := by
  unfold runInstruction at h
  split at h
  · next hf => rw [hf, Host.Outcome.refused.inj h]
  · next i t _ =>
    obtain ⟨u, hu⟩ := exec_eq_next i t
    cases hu.symm.trans h

/-- Of the five sources, INTR alone can be refused (R240). -/
theorem takeInterrupt_refused {k : Source} {s : State} {r : Refusal} (h : takeInterrupt k s = .refused r) :
    k = .intr ∧ r = .intrInstruction s.pins.intrInsn := by
  cases k with
  | trap | rst75 | rst65 | rst55 => cases h
  | intr =>
    simp only [takeInterrupt] at h
    split at h
    · cases h
    · exact ⟨rfl, (Host.Outcome.refused.inj h).symm⟩

/-- What one step can be, when it is refused: an interrupt entry or an instruction, refused in turn. -/
theorem step_refused_cases {s : State} {r : Refusal} (h : step s = .refused r) :
    (∃ k, chooseRequest s.atBoundary.pins s.atBoundary.ctl s.ctl.eiDelay = some k ∧
      takeInterrupt k s.atBoundary = .refused r) ∨
    (s.executesNext ∧ runInstruction s.atBoundary = .refused r) := by
  simp only [step] at h
  split at h
  · cases h
  next hreset =>
  split at h
  · next k hk => exact .inl ⟨k, hk, h⟩
  next hnone =>
  split at h
  · cases h
  next hhalted => exact .inr ⟨⟨Bool.eq_false_of_not_eq_true hreset, hnone, Bool.eq_false_of_not_eq_true hhalted⟩, h⟩

/-- Settles O6: the fetch finds the unassigned byte; and of what a step can be, only the fetch and an INTR acknowledge
can be refused. -/
theorem refusalsAreTheSpecsTwo : Obligations.RefusalsAreTheSpecsTwo := by
  constructor
  · intro s op hs hop hb
    have hfetch : fetch s.atBoundary = .error (.illegalOpcode op s.pc) := fetch_of_unassigned hop hb
    rw [step_of_executesNext hs, runInstruction, hfetch]
  · intro s r h
    obtain ⟨k, hk, ht⟩ | ⟨hs, hrun⟩ := step_refused_cases h
    · obtain ⟨rfl, rfl⟩ := takeInterrupt_refused ht
      exact .inr ⟨hk, rfl⟩
    · exact .inl ⟨hs, fetch_error (s := s.atBoundary) (runInstruction_refused hrun)⟩

end Sys2Proof.Machine

/-! Data transfer (`40_transfer.md`): O7 to O12. -/

namespace Sys2Proof.Machine

/-! ## Encodings, as the statements write them -/

/-- O1, read as a statement about bytes: `encode` writes the encoding of a well-formed instruction. -/
theorem isEncoding_encode {i : Instr} (hwf : i.wellFormed = true) : IsEncoding (encode i) i :=
  fun rest => decodeOfEncode i rest hwf

theorem withWord_eq_opcodeAndWord (op : Byte) (v : Word) : withWord op v = opcodeAndWord op v := by
  simp only [withWord, opcodeAndWord, loByte_eq, hiByte_eq]

theorem isEncoding_opcodeAndWord {i : Instr} {op : Byte} {v : Word} (hwf : i.wellFormed = true)
    (h : encode i = withWord op v) : IsEncoding (opcodeAndWord op v) i := by
  rw [← withWord_eq_opcodeAndWord, ← h]
  exact isEncoding_encode hwf

/-! ## Register writes, as the statements describe them -/

theorem setReg_regWritten (s : State) (r : Reg8) (v : Byte) : RegWritten s r v (s.setReg r v) :=
  ⟨State.reg_setReg_same s r v, fun x hx => State.reg_setReg_other s r x v hx, rfl⟩

theorem setPair_eq_withPair (s : State) (rp : RegPair) (v : Word) : s.setPair rp v = s.withPair rp v := by
  cases rp <;> simp only [State.setPair, State.withPair, hiByte_eq, loByte_eq]

/-! ## HL as two bytes (R21) -/

/-- A store of HL is two stores of one byte, L first. -/
theorem write16_hl (s : State) (a : Word) :
    s.write16 a s.hl = (s.write8 a s.regs.l).write8 (a + 1) s.regs.h := by
  simp only [State.write16, State.hl, loByte_joinBytes, hiByte_joinBytes]

/-- The two pair writes of XCHG, both with values read before them, exchange the four registers (R123). -/
theorem setPair_h_d_exchange (s : State) :
    (s.setPair .h (s.pair .d)).setPair .d (s.pair .h) = { s with regs :=
      { s.regs with h := s.regs.d, l := s.regs.e, d := s.regs.h, e := s.regs.l } } := by
  simp only [State.setPair, State.pair, State.hl, hiByte_joinBytes, loByte_joinBytes]

/-! ## The obligations -/

/-- Settles O7: both instructions are one register write and the step of PC. -/
theorem moveToRegister : Obligations.MoveToRegister :=
  ⟨fun dst src => ⟨isEncoding_encode (i := .movRR dst src) rfl,
      fun s => ⟨_, setReg_regWritten s dst (s.reg src), rfl⟩⟩,
    fun dst imm => ⟨isEncoding_encode (i := .mviR dst imm) rfl,
      fun s => ⟨_, setReg_regWritten s dst imm, rfl⟩⟩⟩

/-- Settles O8: each is one read by R57, from the address of before, and one register write. -/
theorem loadByteIntoRegister : Obligations.LoadByteIntoRegister :=
  ⟨fun dst => ⟨isEncoding_encode (i := .movRM dst) rfl,
      fun s => ⟨_, _, _, read8_loads s s.hl, setReg_regWritten _ dst _, rfl⟩⟩,
    fun dir => ⟨isEncoding_opcodeAndWord rfl rfl, fun s => ⟨_, _, read8_loads s dir, rfl⟩⟩,
    fun rp hwf => ⟨isEncoding_encode hwf, fun s => ⟨_, _, read8_loads s (s.pair rp), rfl⟩⟩⟩

/-- Settles O9: each is one store by R57 and the step of PC. -/
theorem storeByte : Obligations.StoreByte :=
  ⟨fun src => ⟨isEncoding_encode (i := .movMR src) rfl,
      fun s => ⟨_, write8_stores s s.hl (s.reg src), rfl⟩⟩,
    fun imm => ⟨isEncoding_encode (i := .mviM imm) rfl, fun s => ⟨_, write8_stores s s.hl imm, rfl⟩⟩,
    fun dir => ⟨isEncoding_opcodeAndWord rfl rfl, fun s => ⟨_, write8_stores s dir s.regs.a, rfl⟩⟩,
    fun rp hwf => ⟨isEncoding_encode hwf, fun s => ⟨_, write8_stores s (s.pair rp) s.regs.a, rfl⟩⟩⟩

/-- Settles O10: the model's write of a pair is the one the statement describes. -/
theorem loadPairImmediate : Obligations.LoadPairImmediate := by
  refine fun rp imm => ⟨isEncoding_opcodeAndWord rfl rfl, fun s => ?_⟩
  rw [← setPair_eq_withPair]
  rfl

/-- Settles O11: LHLD is one read of two bytes, SHLD two stores of one byte. -/
theorem loadAndStoreHlDirect : Obligations.LoadAndStoreHlDirect := by
  refine ⟨fun dir => ⟨isEncoding_opcodeAndWord rfl rfl, fun s => ⟨_, _, read16_loadsWord s dir, ?_⟩⟩,
    fun dir => ⟨isEncoding_opcodeAndWord rfl rfl,
      fun s => ⟨_, _, write8_stores s dir s.regs.l, write8_stores _ (dir + 1) s.regs.h, ?_⟩⟩⟩
  · rw [← setPair_eq_withPair]
    rfl
  · rw [← write16_hl]
    rfl

/-- Settles O12: XCHG is the exchange of the two pairs, SPHL a write of SP. -/
theorem exchangeAndLoadSp : Obligations.ExchangeAndLoadSp := by
  refine ⟨⟨isEncoding_encode (i := .xchg) rfl, fun s => ?_⟩, isEncoding_encode (i := .sphl) rfl, fun _ => rfl⟩
  rw [← setPair_h_d_exchange]
  rfl

end Sys2Proof.Machine

/-! Arithmetic (`41_arithmetic.md`): O13 to O22. -/

namespace Sys2Proof.Machine

/-! ## The ends of an instruction, as the statements describe them -/

/-- A meaning that ends in `advance` is answered by what the statements call `after` (R27). -/
theorem next_advance {t u : State} (h : t = u) (n : Nat) :
    (.next (t.advance n) : Host.Outcome State Fault Refusal) = .next (u.after (BitVec.ofNat 16 n)) := by
  rw [h]; rfl

theorem incFlags_eq (f : Flags) (v : Byte) :
    incFlags f v = resultFlags (v + 1) (decide (v.toNat % 16 = 15)) f.cy :=
  flagsOf_eq _ _ _

theorem decFlags_eq (f : Flags) (v : Byte) :
    decFlags f v = resultFlags (v - 1) (decide (v.toNat % 16 ≠ 0)) f.cy :=
  flagsOf_eq _ _ _

/-! ## Addition, subtraction and compare (R131 to R142, R151 to R153) -/

/-- Settles O13: the three operand forms are one addition, the M form behind a read by R57. -/
theorem addResult : Obligations.AddResult :=
  ⟨fun src => ⟨isEncoding_encode (i := .addR src) rfl, fun _ => next_advance (addToA_eq _ _ _) 1⟩,
    ⟨isEncoding_encode (i := .addM) rfl,
      fun s => ⟨_, _, read8_loads s s.hl, next_advance (addToA_eq _ _ _) 1⟩⟩,
    fun imm => ⟨isEncoding_encode (i := .adi imm) rfl, fun _ => next_advance (addToA_eq _ _ _) 2⟩⟩

/-- Settles O14: the same addition, with CY taken from the state before the operand is read. -/
theorem addWithCarryResult : Obligations.AddWithCarryResult :=
  ⟨fun src => ⟨isEncoding_encode (i := .adcR src) rfl, fun _ => next_advance (addToA_eq _ _ _) 1⟩,
    ⟨isEncoding_encode (i := .adcM) rfl,
      fun s => ⟨_, _, read8_loads s s.hl, next_advance (addToA_eq _ _ _) 1⟩⟩,
    fun imm => ⟨isEncoding_encode (i := .aci imm) rfl, fun _ => next_advance (addToA_eq _ _ _) 2⟩⟩

/-- Settles O15: the three operand forms are one subtraction, the M form behind a read by R57. -/
theorem subtractResult : Obligations.SubtractResult :=
  ⟨fun src => ⟨isEncoding_encode (i := .subR src) rfl, fun _ => next_advance (subFromA_eq _ _ _) 1⟩,
    ⟨isEncoding_encode (i := .subM) rfl,
      fun s => ⟨_, _, read8_loads s s.hl, next_advance (subFromA_eq _ _ _) 1⟩⟩,
    fun imm => ⟨isEncoding_encode (i := .sui imm) rfl, fun _ => next_advance (subFromA_eq _ _ _) 2⟩⟩

/-- Settles O16: the same subtraction, with CY taken from the state before the operand is read. -/
theorem subtractWithBorrowResult : Obligations.SubtractWithBorrowResult :=
  ⟨fun src => ⟨isEncoding_encode (i := .sbbR src) rfl, fun _ => next_advance (subFromA_eq _ _ _) 1⟩,
    ⟨isEncoding_encode (i := .sbbM) rfl,
      fun s => ⟨_, _, read8_loads s s.hl, next_advance (subFromA_eq _ _ _) 1⟩⟩,
    fun imm => ⟨isEncoding_encode (i := .sbi imm) rfl, fun _ => next_advance (subFromA_eq _ _ _) 2⟩⟩

/-- Z of a compare is equality of the bytes (R151). -/
theorem subtractFlags_z_iff (a v : Byte) : (subtractFlags a v false).z = true ↔ a = v := by
  simp [subtractFlags, resultFlags, BitVec.sub_eq_iff_eq_add]

/-- CY of a compare is the unsigned order (R151). -/
theorem subtractFlags_cy_iff (a v : Byte) : (subtractFlags a v false).cy = true ↔ a.toNat < v.toNat := by
  simp [subtractFlags, resultFlags]

/-- Settles O17: the three operand forms are one compare, and its Z and CY order the bytes. -/
theorem compareFlags : Obligations.CompareFlags :=
  ⟨fun src => ⟨isEncoding_encode (i := .cmpR src) rfl, fun _ => next_advance (compareWithA_eq _ _) 1⟩,
    ⟨isEncoding_encode (i := .cmpM) rfl, fun s => ⟨_, _, read8_loads s s.hl, by
      rw [← read8_regs s s.hl]
      exact next_advance (compareWithA_eq _ _) 1⟩⟩,
    fun imm => ⟨isEncoding_encode (i := .cpi imm) rfl, fun _ => next_advance (compareWithA_eq _ _) 2⟩,
    fun a v => ⟨subtractFlags_z_iff a v, subtractFlags_cy_iff a v⟩⟩

/-! ## Increment and decrement (R143 to R148) -/

/-- Settles O18: the register forms are a register write, the M forms a read and a store at the same HL, and then the
flags of INR or DCR. -/
theorem incrementAndDecrement : Obligations.IncrementAndDecrement :=
  ⟨fun reg => ⟨isEncoding_encode (i := .inrR reg) rfl, fun s =>
      ⟨_, setReg_regWritten s reg _, next_advance (congrArg (State.setFlags _) (incFlags_eq _ _)) 1⟩⟩,
    ⟨isEncoding_encode (i := .inrM) rfl, fun s =>
      ⟨_, _, _, read8_loads s s.hl, write8_stores _ s.hl _,
        next_advance (congrArg (State.setFlags _) (incFlags_eq _ _)) 1⟩⟩,
    fun reg => ⟨isEncoding_encode (i := .dcrR reg) rfl, fun s =>
      ⟨_, setReg_regWritten s reg _, next_advance (congrArg (State.setFlags _) (decFlags_eq _ _)) 1⟩⟩,
    ⟨isEncoding_encode (i := .dcrM) rfl, fun s =>
      ⟨_, _, _, read8_loads s s.hl, write8_stores _ s.hl _,
        next_advance (congrArg (State.setFlags _) (decFlags_eq _ _)) 1⟩⟩⟩

/-- Settles O19: the model's write of a pair is the one the statement describes. -/
theorem pairIncrementAndDecrement : Obligations.PairIncrementAndDecrement :=
  fun rp => ⟨isEncoding_encode (i := .inx rp) rfl, isEncoding_encode (i := .dcx rp) rfl,
    fun s => ⟨next_advance (setPair_eq_withPair s rp _) 1, next_advance (setPair_eq_withPair s rp _) 1⟩⟩

/-! ## Double addition (R149) -/

/-- Settles O20: the 17-bit sum of R149, split into the 16-bit sum and its carry. -/
theorem doubleAdd : Obligations.DoubleAdd := by
  refine fun rp => ⟨isEncoding_encode (i := .dad rp) rfl, fun s => next_advance ?_ 1⟩
  have hsum : BitVec.ofNat 16 (s.hl.toNat + (s.pair rp).toNat) = s.hl + s.pair rp :=
    (BitVec.add_def _ _).symm
  rw [hsum, setPair_eq_withPair]
  rfl

/-! ## Decimal adjust (R150) -/

/-- The correction of R150 as a number: no carry is lost when 06 and 60 are added. -/
theorem toNat_daaCorrection (a : Byte) (f : Flags) :
    (daaCorrection a f).toNat = (if daaLow a f then 0x06 else 0) + (if daaHigh a f then 0x60 else 0) := by
  unfold daaCorrection
  cases daaLow a f <;> cases daaHigh a f <;> rfl

theorem daaResult_eq (a : Byte) (f : Flags) :
    daaResult a f = BitVec.ofNat 8
      (a.toNat + ((if daaLow a f then 0x06 else 0) + (if daaHigh a f then 0x60 else 0))) := by
  rw [← toNat_daaCorrection]
  exact BitVec.add_def _ _

/-- Settles O21: the correction and the result of R150 as numbers; then either reading of the flags. -/
theorem decimalAdjust : Obligations.DecimalAdjust := by
  refine ⟨isEncoding_encode (i := .daa) rfl, fun s => next_advance ?_ 1⟩
  rw [daaResult_eq]
  cases hreading : s.params.daaFlags with
  | source => rfl
  | intel =>
    simp only [daaFlagsAfter, flagsOf_eq, daaResult_eq, loNibble, toNat_daaCorrection]
    rfl

/-! ## Decimal sums (R133, R136, R150) -/

theorem toNat_packedBcd {n : Nat} (h : n < 100) : (packedBcd n).toNat = n / 10 * 16 + n % 10 := by
  rw [packedBcd, BitVec.toNat_ofNat]
  omega

theorem toNat_add8_res (a b : Byte) (cin : Bool) :
    (add8 a b cin).res.toNat = (a.toNat + b.toNat + cin.toNat) % 256 :=
  BitVec.toNat_ofNat _ _

/-- After the addition of packed-BCD bytes DAA corrects the low digit exactly when the sum of the low digits has two
digits: AC tells of a sum from 16 on, the low nibble of one from 10 to 15. -/
theorem daaLow_add8_packedBcd {x y : Nat} (hx : x < 100) (hy : y < 100) (cin : Bool) :
    daaLow (add8 (packedBcd x) (packedBcd y) cin).res (add8 (packedBcd x) (packedBcd y) cin).flags =
      decide (10 ≤ x % 10 + y % 10 + cin.toNat) := by
  have hcin := cin.toNat_le
  simp only [daaLow, loNibble, AluResult.flags, flagsOf, add8, BitVec.toNat_ofNat, toNat_packedBcd hx,
    toNat_packedBcd hy, ← Bool.decide_or, decide_eq_decide]
  omega

/-- Of a sum of `hi` tens and `lo` ones, held as `16 * hi + lo` in a byte, the carry and the nibbles tell whether it
reaches 100: R150's condition on the high digit. -/
theorem daaHigh_digits {hi lo : Nat} (hhi : hi ≤ 18) (hlo : lo ≤ 19) :
    (9 < (16 * hi + lo) % 256 / 16 ∨ 255 < 16 * hi + lo) ∨
        9 ≤ (16 * hi + lo) % 256 / 16 ∧ 9 < (16 * hi + lo) % 256 % 16 ↔
      100 ≤ 10 * hi + lo := by
  omega

/-- After the addition of packed-BCD bytes DAA corrects the high digit exactly when the decimal sum carries. -/
theorem daaHigh_add8_packedBcd {x y : Nat} (hx : x < 100) (hy : y < 100) (cin : Bool) :
    daaHigh (add8 (packedBcd x) (packedBcd y) cin).res (add8 (packedBcd x) (packedBcd y) cin).flags =
      decide (100 ≤ x + y + cin.toNat) := by
  have hcin := cin.toNat_le
  have hbyte : x / 10 * 16 + x % 10 + (y / 10 * 16 + y % 10) + cin.toNat =
      16 * (x / 10 + y / 10) + (x % 10 + y % 10 + cin.toNat) := by omega
  have hnumber : x + y + cin.toNat = 10 * (x / 10 + y / 10) + (x % 10 + y % 10 + cin.toNat) := by omega
  simp only [daaHigh, hiNibble, loNibble, AluResult.flags, flagsOf, add8, BitVec.toNat_ofNat, toNat_packedBcd hx,
    toNat_packedBcd hy, ← Bool.decide_or, ← Bool.decide_and, decide_eq_decide, hbyte]
  rw [hnumber]
  exact daaHigh_digits (by omega) (by omega)

/-- Each correction carries its digit over in base 16 where the decimal digit carries in base 10. -/
theorem daaResult_add8_packedBcd {x y : Nat} (hx : x < 100) (hy : y < 100) (cin : Bool) :
    daaResult (add8 (packedBcd x) (packedBcd y) cin).res (add8 (packedBcd x) (packedBcd y) cin).flags =
      packedBcd ((x + y + cin.toNat) % 100) := by
  have hcin := cin.toNat_le
  apply BitVec.eq_of_toNat_eq
  rw [daaResult_eq, daaLow_add8_packedBcd hx hy, daaHigh_add8_packedBcd hx hy, BitVec.toNat_ofNat, toNat_add8_res,
    toNat_packedBcd hx, toNat_packedBcd hy, toNat_packedBcd (Nat.mod_lt _ (by decide))]
  simp only [decide_eq_true_eq]
  split <;> split <;> omega

/-- Under `DAA_FLAGS = intel` CY is set by the correction of the high digit, and an old CY already asks for it. -/
theorem daaFlagsAfter_intel_cy (a : Byte) (f : Flags) : (daaFlagsAfter .intel a f).cy = daaHigh a f := by
  simp only [daaFlagsAfter, flagsOf, daaHigh]
  cases f.cy <;> simp

/-- An addition of packed-BCD bytes, then DAA, is the decimal addition. -/
theorem exec_daa_addToA_packedBcd (s : State) {x y : Nat} (hx : x < 100) (hy : y < 100) (ha : s.regs.a = packedBcd x)
    (cin : Bool) (n : Nat) :
    ∃ u, exec .daa ((addToA (packedBcd y, s) cin).advance n) = .next u ∧
      u.regs.a = packedBcd ((x + y + cin.toNat) % 100) ∧
      (s.params.daaFlags = .intel → u.flags.cy = decide (100 ≤ x + y + cin.toNat)) := by
  refine ⟨_, rfl, ?_, fun hintel => ?_⟩
  · rw [← daaResult_add8_packedBcd hx hy, ← ha]
    rfl
  · rw [← daaHigh_add8_packedBcd hx hy, ← daaFlagsAfter_intel_cy, ← ha, ← hintel]
    rfl

/-- Settles O22: both instructions are an addition to A, ACI with the old CY. -/
theorem decimalAdjustGivesDecimalSum : Obligations.DecimalAdjustGivesDecimalSum :=
  fun s _ _ hx hy ha =>
    ⟨⟨_, (exec_daa_addToA_packedBcd s hx hy ha false 2).imp fun _ h => ⟨rfl, h⟩⟩,
      ⟨_, (exec_daa_addToA_packedBcd s hx hy ha s.flags.cy 2).imp fun _ h => ⟨rfl, h⟩⟩⟩

end Sys2Proof.Machine

/-! The readings of the two flag parameters (`00_scope.md` R7): O59. -/

namespace Sys2Proof.Machine

/-! ## What does not look at the readings

Every operation but the flags of DAA, XOR and OR commutes with a change of the readings. Where it does not touch
memory or the environment this holds by `rfl`. -/

theorem draw8_withReadings (s : State) (daa logic : Reading) :
    (s.withReadings daa logic).draw8 = (s.draw8.1, s.draw8.2.withReadings daa logic) := rfl

theorem envReply_withReadings (s : State) (daa logic : Reading) :
    (s.withReadings daa logic).envReply = (s.envReply.1, s.envReply.2.withReadings daa logic) := by
  have hreplies : (s.withReadings daa logic).ioReplies = s.ioReplies := rfl
  unfold State.envReply
  rw [hreplies]
  cases s.ioReplies <;> rfl

theorem ioRead_withReadings (s : State) (port : Byte) (daa logic : Reading) :
    (s.withReadings daa logic).ioRead port = ((s.ioRead port).1, (s.ioRead port).2.withReadings daa logic) := by
  simp only [State.ioRead, envReply_withReadings]
  rfl

theorem serialIn_withReadings (s : State) (daa logic : Reading) :
    (s.withReadings daa logic).serialIn = (s.serialIn.1, s.serialIn.2.withReadings daa logic) := by
  have hpins : (s.withReadings daa logic).pins = s.pins := rfl
  unfold State.serialIn
  rw [hpins]
  cases s.pins.sid <;> rfl

theorem readCell_withReadings (s : State) (a : Word) (daa logic : Reading) :
    (s.withReadings daa logic).readCell a = ((s.readCell a).1, (s.readCell a).2.withReadings daa logic) := by
  have hcell : (s.withReadings daa logic).cell a = s.cell a := rfl
  unfold State.readCell
  rw [hcell]
  cases s.cell a <;> rfl

theorem read8_withReadings (s : State) (a : Word) (daa logic : Reading) :
    (s.withReadings daa logic).read8 a = ((s.read8 a).1, (s.read8 a).2.withReadings daa logic) := by
  have hkind : (s.withReadings daa logic).kindAt a = s.kindAt a := rfl
  unfold State.read8
  rw [hkind]
  cases s.kindAt a with
  | ram | rom => exact readCell_withReadings s a daa logic
  | unmapped => rfl
  | device =>
    simp only [envReply_withReadings]
    rfl

theorem read16_withReadings (s : State) (a : Word) (daa logic : Reading) :
    (s.withReadings daa logic).read16 a = ((s.read16 a).1, (s.read16 a).2.withReadings daa logic) := by
  simp only [State.read16, read8_withReadings]

theorem write8_withReadings (s : State) (a : Word) (v : Byte) (daa logic : Reading) :
    (s.withReadings daa logic).write8 a v = (s.write8 a v).withReadings daa logic := by
  have hkind : (s.withReadings daa logic).kindAt a = s.kindAt a := rfl
  unfold State.write8
  rw [hkind]
  cases s.kindAt a <;> rfl

theorem write16_withReadings (s : State) (a v : Word) (daa logic : Reading) :
    (s.withReadings daa logic).write16 a v = (s.write16 a v).withReadings daa logic := by
  simp only [State.write16, write8_withReadings]

theorem push16_withReadings (s : State) (v : Word) (daa logic : Reading) :
    (s.withReadings daa logic).push16 v = (s.push16 v).withReadings daa logic := by
  simp only [State.push16, write8_withReadings]
  rfl

theorem pop16_withReadings (s : State) (daa logic : Reading) :
    (s.withReadings daa logic).pop16 = (s.pop16.1, s.pop16.2.withReadings daa logic) := by
  simp only [State.pop16, read16_withReadings]
  rfl

theorem callTo_withReadings (s : State) (ret target : Word) (daa logic : Reading) :
    (s.withReadings daa logic).callTo ret target = (s.callTo ret target).withReadings daa logic := by
  simp only [State.callTo, push16_withReadings]
  rfl

theorem popPc_withReadings (s : State) (daa logic : Reading) :
    (s.withReadings daa logic).popPc = s.popPc.withReadings daa logic := by
  simp only [State.popPc, pop16_withReadings]
  rfl

theorem setPair_withReadings (s : State) (rp : RegPair) (v : Word) (daa logic : Reading) :
    (s.withReadings daa logic).setPair rp v = (s.setPair rp v).withReadings daa logic := by
  cases rp <;> rfl

/-- AC is 1 after an AND under both settings of `LOGIC_AC` (R160). -/
theorem logicAcAfter_and (reading : Reading) : logicAcAfter reading true = true := by
  cases reading <;> rfl

/-- The AND forms do not look at the readings. -/
theorem andToA_withReadings (v : Byte) (s : State) (daa logic : Reading) :
    andToA (v, s.withReadings daa logic) = (andToA (v, s)).withReadings daa logic := by
  simp only [andToA, logicToA, logicAcAfter_and]
  rfl

theorem next_advance_withReadings {t u : State} {daa logic : Reading} (h : t = u.withReadings daa logic) (n : Nat) :
    (.next (t.advance n) : Host.Outcome State Fault Refusal) = .next ((u.advance n).withReadings daa logic) := by
  rw [h]
  rfl

/-- Every instruction but DAA, XRA, XRI, ORA and ORI commutes with a change of the readings: it is made of operations
that do. -/
theorem exec_withReadings {i : Instr} (hi : readsFlagReading i = false) (s : State) (daa logic : Reading) :
    ∃ t, exec i s = .next t ∧ exec i (s.withReadings daa logic) = .next (t.withReadings daa logic) := by
  cases i with
  | daa | xraR | xraM | xri | oraR | oraM | ori => cases hi
  -- reads of memory
  | movRM | addM | adcM | subM | sbbM | cmpM | lda | ldax =>
    refine ⟨_, rfl, congrArg Host.Outcome.next ?_⟩
    simp only [memOperand_eq, read8_withReadings]
    rfl
  | lhld =>
    refine ⟨_, rfl, congrArg Host.Outcome.next ?_⟩
    simp only [read16_withReadings]
    rfl
  -- the ANDs, whose AC is written by LOGIC_AC
  | anaR | ani => exact ⟨_, rfl, next_advance_withReadings (andToA_withReadings _ s daa logic) _⟩
  | anaM =>
    refine ⟨_, rfl, next_advance_withReadings ?_ 1⟩
    rw [memOperand_eq, read8_withReadings]
    exact andToA_withReadings _ _ daa logic
  -- stores
  | movMR | mviM | sta | stax =>
    exact ⟨_, rfl, next_advance_withReadings (write8_withReadings s _ _ daa logic) _⟩
  | shld =>
    exact ⟨_, rfl, next_advance_withReadings (write16_withReadings s _ _ daa logic) _⟩
  -- a read, then stores
  | inrM | dcrM =>
    refine ⟨_, rfl, congrArg Host.Outcome.next ?_⟩
    simp only [memOperand_eq, read8_withReadings, write8_withReadings]
    rfl
  | xthl =>
    refine ⟨_, rfl, congrArg Host.Outcome.next ?_⟩
    simp only [read16_withReadings, write8_withReadings]
    rfl
  -- the stack
  | pushRp =>
    exact ⟨_, rfl, next_advance_withReadings (push16_withReadings s _ daa logic) _⟩
  | pushPsw =>
    refine ⟨_, rfl, congrArg Host.Outcome.next ?_⟩
    simp only [write8_withReadings, draw8_withReadings]
    rfl
  | popRp =>
    refine ⟨_, rfl, congrArg Host.Outcome.next ?_⟩
    simp only [pop16_withReadings, setPair_withReadings]
    rfl
  | popPsw =>
    refine ⟨_, rfl, congrArg Host.Outcome.next ?_⟩
    simp only [pop16_withReadings]
    rfl
  | call | rst => exact ⟨_, rfl, congrArg Host.Outcome.next (callTo_withReadings s _ _ daa logic)⟩
  | ret => exact ⟨_, rfl, congrArg Host.Outcome.next (popPc_withReadings s daa logic)⟩
  -- branches on a condition, which the readings do not decide
  | jccc cc | cccc cc | rccc cc =>
    refine ⟨_, rfl, congrArg Host.Outcome.next ?_⟩
    have hcond : condHolds cc (s.withReadings daa logic).flags = condHolds cc s.flags := rfl
    simp only [hcond, callTo_withReadings, popPc_withReadings]
    split <;> rfl
  -- the ports and the serial input
  | inPort =>
    refine ⟨_, rfl, congrArg Host.Outcome.next ?_⟩
    simp only [ioRead_withReadings]
    rfl
  | rim =>
    refine ⟨_, rfl, congrArg Host.Outcome.next ?_⟩
    simp only [serialIn_withReadings]
    rfl
  -- a pair or SP
  | lxi | inx | dcx =>
    exact ⟨_, rfl, next_advance_withReadings (setPair_withReadings s _ _ daa logic) _⟩
  -- registers, SP, PC, flags, control state and the history alone
  | _ => exact ⟨_, rfl, rfl⟩

/-- Settles O59: the next state answered is that one. -/
theorem flagReadingsMatterOnlyWhereSaid : Obligations.FlagReadingsMatterOnlyWhereSaid := by
  intro i s t daa logic hi h
  obtain ⟨u, hu, hreadings⟩ := exec_withReadings hi s daa logic
  obtain rfl := Host.Outcome.next.inj (hu.symm.trans h)
  exact hreadings

end Sys2Proof.Machine

/-! Logical (`42_logical.md`) and the carry flag (`43_rotate_flags.md`): O23 to O25. -/

namespace Sys2Proof.Machine

/-! ## The logical operations on A (R160)

An operand's read leaves the registers and the parameters as they were, so A and `LOGIC_AC` may be taken from the
state before it. -/

/-- XOR and OR set AC exactly under `LOGIC_AC = source` (R160). -/
theorem logicAcAfter_xorOr (reading : Reading) : logicAcAfter reading false = decide (reading = .source) := by
  cases reading <;> rfl

theorem andToA_eq_afterLogic {s : State} {o : Byte × State} (hregs : o.2.regs = s.regs) :
    andToA o = o.2.afterLogic (s.regs.a &&& o.1) true := by
  rw [andToA_eq, logicToA_eq, logicAcAfter_and, hregs]

theorem xorToA_eq_afterLogic {s : State} {o : Byte × State} (hregs : o.2.regs = s.regs)
    (hparams : o.2.params = s.params) :
    xorToA o = o.2.afterLogic (s.regs.a ^^^ o.1) (decide (s.params.logicAc = .source)) := by
  rw [xorToA_eq, logicToA_eq, logicAcAfter_xorOr, hregs, hparams]

theorem orToA_eq_afterLogic {s : State} {o : Byte × State} (hregs : o.2.regs = s.regs)
    (hparams : o.2.params = s.params) :
    orToA o = o.2.afterLogic (s.regs.a ||| o.1) (decide (s.params.logicAc = .source)) := by
  rw [orToA_eq, logicToA_eq, logicAcAfter_xorOr, hregs, hparams]

/-! ## The obligations -/

/-- Settles O23: the three operand forms are one AND, the M form behind a read by R57. -/
theorem andResult : Obligations.AndResult :=
  ⟨fun src => ⟨isEncoding_encode (i := .anaR src) rfl, fun _ => next_advance (andToA_eq_afterLogic rfl) 1⟩,
    ⟨isEncoding_encode (i := .anaM) rfl, fun s =>
      ⟨_, _, read8_loads s s.hl, next_advance (andToA_eq_afterLogic (read8_regs s s.hl)) 1⟩⟩,
    fun imm => ⟨isEncoding_encode (i := .ani imm) rfl, fun _ => next_advance (andToA_eq_afterLogic rfl) 2⟩⟩

/-- Settles O24: the three operand forms are one XOR and one OR, the M forms behind a read by R57. -/
theorem xorAndOrResult : Obligations.XorAndOrResult := by
  intro s
  have hregs := read8_regs s s.hl
  have hparams := read8_params s s.hl
  exact
    ⟨⟨fun src => ⟨isEncoding_encode (i := .xraR src) rfl, next_advance (xorToA_eq_afterLogic rfl rfl) 1⟩,
      ⟨isEncoding_encode (i := .xraM) rfl,
        _, _, read8_loads s s.hl, next_advance (xorToA_eq_afterLogic hregs hparams) 1⟩,
      fun imm => ⟨isEncoding_encode (i := .xri imm) rfl, next_advance (xorToA_eq_afterLogic rfl rfl) 2⟩⟩,
    ⟨fun src => ⟨isEncoding_encode (i := .oraR src) rfl, next_advance (orToA_eq_afterLogic rfl rfl) 1⟩,
      ⟨isEncoding_encode (i := .oraM) rfl,
        _, _, read8_loads s s.hl, next_advance (orToA_eq_afterLogic hregs hparams) 1⟩,
      fun imm => ⟨isEncoding_encode (i := .ori imm) rfl, next_advance (orToA_eq_afterLogic rfl rfl) 2⟩⟩⟩

/-- Settles O25: CMA is a write of A, its complement being `255 - A`; CMC and STC are a write of the flags that
changes CY alone. -/
theorem complementAndCarry : Obligations.ComplementAndCarry :=
  ⟨⟨isEncoding_encode (i := .cma) rfl, fun s =>
      next_advance (congrArg s.setA (BitVec.allOnes_sub_eq_not s.regs.a).symm) 1⟩,
    ⟨isEncoding_encode (i := .cmc) rfl, fun _ => rfl⟩,
    isEncoding_encode (i := .stc) rfl, fun _ => rfl⟩

end Sys2Proof.Machine

/-! Rotations (`43_rotate_flags.md`): O26 and O27. -/

namespace Sys2Proof.Machine

/-! ## Rings of bits of any width -/

theorem rotateLeft_zero {w : Nat} (x : BitVec w) : x.rotateLeft 0 = x := by
  simp [BitVec.rotateLeft_def, BitVec.ushiftRight_eq_zero]

theorem rotateLeft_width {w : Nat} (x : BitVec w) : x.rotateLeft w = x := by
  rw [← BitVec.rotateLeft_mod_eq_rotateLeft, Nat.mod_self, rotateLeft_zero]

theorem rotateLeft_rotateLeft {w : Nat} (x : BitVec w) (m n : Nat) :
    (x.rotateLeft m).rotateLeft n = x.rotateLeft (m + n) := by
  apply BitVec.eq_of_getMsbD_eq
  intro i hi
  simp [BitVec.getMsbD_rotateLeft, hi, Nat.mod_lt _ (Nat.zero_lt_of_lt hi), Nat.add_assoc]

theorem iterate_rotateLeft_one {w : Nat} (n : Nat) (x : BitVec w) :
    (BitVec.rotateLeft · 1)^[n] x = x.rotateLeft n := by
  induction n with
  | zero => exact (rotateLeft_zero x).symm
  | succ n ih => rw [Function.iterate_succ_apply', ih, rotateLeft_rotateLeft]

/-- A ring of `w` bits is back after `w` rotations to the left by one. -/
theorem iterate_rotateLeft_one_width {w : Nat} (x : BitVec w) : (BitVec.rotateLeft · 1)^[w] x = x := by
  rw [iterate_rotateLeft_one, rotateLeft_width]

theorem leftInverse_rotateRight_one {w : Nat} :
    Function.LeftInverse (BitVec.rotateRight · 1) (BitVec.rotateLeft · 1 : BitVec w → BitVec w) := by
  intro x
  apply BitVec.eq_of_getLsbD_eq
  intro i hi
  obtain rfl | hw : w = 1 ∨ 1 < w := by omega
  · simp [BitVec.rotateRight_def, BitVec.rotateLeft_def]
  have hmod : 1 % w = 1 := Nat.mod_eq_of_lt hw
  obtain rfl | hlow : i = w - 1 ∨ i < w - 1 := by omega
  · simp [hmod, Nat.zero_lt_of_lt hw]
  · simp [hi, hmod, hlow]

/-- A ring of `w` bits is back after `w` rotations to the right by one: they undo `w` rotations to the left. -/
theorem iterate_rotateRight_one_width {w : Nat} (x : BitVec w) : (BitVec.rotateRight · 1)^[w] x = x := by
  have hundone := leftInverse_rotateRight_one.iterate w x
  rwa [iterate_rotateLeft_one_width] at hundone

/-! ## A byte moved by one place, a bit coming in at the free end (R176 to R179) -/

/-- Moved to the left: the bit comes in at place 0. -/
theorem getLsbD_append_bit (a : Byte) (b : Bool) {i : Nat} (hi : i < 8) :
    (a.extractLsb' 0 7 ++ BitVec.ofBool b).getLsbD i = if i = 0 then b else a.getLsbD (i - 1) := by
  rw [BitVec.getLsbD_append]
  cases i with
  | zero => simp
  | succ j => simp [show j < 7 by omega]

/-- Moved to the right: the bit comes in at place 7. -/
theorem getLsbD_bit_append (a : Byte) (b : Bool) {i : Nat} (hi : i < 8) :
    (BitVec.ofBool b ++ a.extractLsb' 1 7).getLsbD i = if i = 7 then b else a.getLsbD (i + 1) := by
  rw [BitVec.getLsbD_append]
  obtain rfl | hlow : i = 7 ∨ i < 7 := by omega
  · simp
  · simp [hlow, hlow.ne, Nat.add_comm]

theorem rotateLeft_one_eq_append (a : Byte) :
    a.rotateLeft 1 = a.extractLsb' 0 7 ++ BitVec.ofBool (a.getLsbD 7) := by
  apply BitVec.eq_of_getLsbD_eq
  intro i hi
  rw [getLsbD_append_bit a _ hi, BitVec.getLsbD_rotateLeft]
  cases i with
  | zero => rfl
  | succ j => simp [hi]

theorem rotateRight_one_eq_append (a : Byte) :
    a.rotateRight 1 = BitVec.ofBool (a.getLsbD 0) ++ a.extractLsb' 1 7 := by
  apply BitVec.eq_of_getLsbD_eq
  intro i hi
  rw [getLsbD_bit_append a _ hi, BitVec.getLsbD_rotateRight]
  obtain rfl | hlow : i = 7 ∨ i < 7 := by omega
  · rfl
  · simp [hlow, hlow.ne, Nat.add_comm]

theorem shiftLeft_or_bit_eq_append (a : Byte) (b : Bool) :
    (a <<< 1) ||| (if b then 0x01 else 0x00) = a.extractLsb' 0 7 ++ BitVec.ofBool b := by
  apply BitVec.eq_of_getLsbD_eq
  intro i hi
  rw [getLsbD_append_bit a b hi, BitVec.getLsbD_or, BitVec.getLsbD_shiftLeft]
  cases i with
  | zero => cases b <;> rfl
  | succ j => cases b <;> simp [hi]

theorem shiftRight_or_bit_eq_append (a : Byte) (b : Bool) :
    (a >>> 1) ||| (if b then 0x80 else 0x00) = BitVec.ofBool b ++ a.extractLsb' 1 7 := by
  apply BitVec.eq_of_getLsbD_eq
  intro i hi
  have hbit7 : (0x80 : Byte) = BitVec.twoPow 8 7 := rfl
  rw [getLsbD_bit_append a b hi, BitVec.getLsbD_or, BitVec.getLsbD_ushiftRight, hbit7]
  obtain rfl | hlow : i = 7 ∨ i < 7 := by omega
  · cases b <;> simp
  · cases b <;> simp [BitVec.getLsbD_twoPow, hlow.ne, hlow.ne', Nat.add_comm]

/-! ## CY and A as one ring -/

/-- The ring of nine bits that RAL and RAR rotate: CY above A (R178, R179). -/
def carryRing (cy : Bool) (a : Byte) : BitVec 9 := BitVec.cons cy a

theorem getLsbD_carryRing (cy : Bool) (a : Byte) (i : Nat) :
    (carryRing cy a).getLsbD i = if i = 8 then cy else a.getLsbD i :=
  BitVec.getLsbD_cons cy a i

theorem carryRing_inj {cy cy' : Bool} {a a' : Byte} (h : carryRing cy a = carryRing cy' a') : cy = cy' ∧ a = a' := by
  have hmsb := congrArg BitVec.msb h
  have hlow := congrArg (BitVec.setWidth 8) h
  simpa [carryRing] using And.intro hmsb hlow

/-- The new CY and A of RAL, as a ring. -/
theorem rotateLeft_one_carryRing (cy : Bool) (a : Byte) :
    (carryRing cy a).rotateLeft 1 = carryRing (a.getLsbD 7) (a.extractLsb' 0 7 ++ BitVec.ofBool cy) := by
  apply BitVec.eq_of_getLsbD_eq
  intro i hi
  rw [BitVec.getLsbD_rotateLeft, getLsbD_carryRing _ _ i]
  obtain rfl | hlow : i = 8 ∨ i < 8 := by omega
  · exact getLsbD_carryRing cy a 7
  rw [if_neg hlow.ne, getLsbD_append_bit a cy hlow]
  cases i with
  | zero => exact getLsbD_carryRing cy a 8
  | succ j => simp [hi, getLsbD_carryRing, show j ≠ 8 by omega]

/-- The new CY and A of RAR, as a ring. -/
theorem rotateRight_one_carryRing (cy : Bool) (a : Byte) :
    (carryRing cy a).rotateRight 1 = carryRing (a.getLsbD 0) (BitVec.ofBool cy ++ a.extractLsb' 1 7) := by
  apply BitVec.eq_of_getLsbD_eq
  intro i hi
  rw [BitVec.getLsbD_rotateRight, getLsbD_carryRing _ _ i]
  obtain rfl | hlow : i = 8 ∨ i < 8 := by omega
  · exact getLsbD_carryRing cy a 0
  rw [if_neg hlow.ne, getLsbD_bit_append a cy hlow]
  simp [hlow, getLsbD_carryRing, Nat.add_comm]

/-! ## A rotation, once and repeated -/

/-- A rotation is a write of A and of CY, as the statements describe it. -/
theorem next_rotated (s : State) {a a' : Byte} (h : a' = a) (cy : Bool) :
    (.next (rotated s a cy) : Host.Outcome State Fault Refusal) =
      .next (State.after { s.withA a' with flags := { s.flags with cy := cy } } 1) := by
  rw [h]
  rfl

/-- A function that rotates A by `g`, repeated, rotates A by `g` repeated and changes no other register. -/
theorem iterate_regs {f : State → State} {g : Byte → Byte} (hf : ∀ s, ∃ cy, f s = rotated s (g s.regs.a) cy)
    (n : Nat) (s : State) : (f^[n] s).regs = { s.regs with a := g^[n] s.regs.a } := by
  induction n with
  | zero => rfl
  | succ n ih =>
    obtain ⟨cy, hrotated⟩ := hf (f^[n] s)
    rw [Function.iterate_succ_apply', Function.iterate_succ_apply', hrotated, rotated_regs, ih]

/-- When A is back, so are the registers. -/
theorem iterate_regs_eq {f : State → State} {g : Byte → Byte} {n : Nat}
    (hf : ∀ s, ∃ cy, f s = rotated s (g s.regs.a) cy) (hg : ∀ a, g^[n] a = a) (s : State) :
    (f^[n] s).regs = s.regs := by
  rw [iterate_regs hf, hg]

/-- A function that rotates the ring of CY and A by `g`, repeated, rotates it by `g` repeated and changes no other
register and no other flag. -/
theorem iterate_regs_flags {f : State → State} {g : BitVec 9 → BitVec 9}
    (hf : ∀ s, ∃ a cy, f s = rotated s a cy ∧ carryRing cy a = g (carryRing s.flags.cy s.regs.a))
    (n : Nat) (s : State) :
    ∃ a cy, (f^[n] s).regs = { s.regs with a := a } ∧ (f^[n] s).flags = { s.flags with cy := cy } ∧
      carryRing cy a = g^[n] (carryRing s.flags.cy s.regs.a) := by
  induction n with
  | zero => exact ⟨_, _, rfl, rfl, rfl⟩
  | succ n ih =>
    obtain ⟨_, _, hregs, hflags, hring⟩ := ih
    obtain ⟨a, cy, hrotated, hstep⟩ := hf (f^[n] s)
    rw [hregs, hflags, hring] at hstep
    rw [Function.iterate_succ_apply', Function.iterate_succ_apply', hrotated]
    exact ⟨a, cy, by rw [rotated_regs, hregs], by rw [rotated_flags, hflags], hstep⟩

/-- When the ring is back, so are the registers and the flags. -/
theorem iterate_regs_flags_eq {f : State → State} {g : BitVec 9 → BitVec 9} {n : Nat}
    (hf : ∀ s, ∃ a cy, f s = rotated s a cy ∧ carryRing cy a = g (carryRing s.flags.cy s.regs.a))
    (hg : ∀ x, g^[n] x = x) (s : State) : (f^[n] s).regs = s.regs ∧ (f^[n] s).flags = s.flags := by
  obtain ⟨a, cy, hregs, hflags, hring⟩ := iterate_regs_flags hf n s
  obtain ⟨rfl, rfl⟩ := carryRing_inj (hring.trans (hg _))
  exact ⟨hregs, hflags⟩

/-! ## The obligations -/

/-- Settles O26: each is a write of A and CY; RLC and RRC rotate A, RAL and RAR shift the old CY in. -/
theorem rotations : Obligations.Rotations :=
  ⟨isEncoding_encode (i := .rlc) rfl, isEncoding_encode (i := .rrc) rfl, isEncoding_encode (i := .ral) rfl,
    isEncoding_encode (i := .rar) rfl, fun s =>
      ⟨next_rotated s (rotateLeft_one_eq_append s.regs.a) _, next_rotated s (rotateRight_one_eq_append s.regs.a) _,
        next_rotated s (shiftLeft_or_bit_eq_append s.regs.a s.flags.cy) _,
        next_rotated s (shiftRight_or_bit_eq_append s.regs.a s.flags.cy) _⟩⟩

/-- Settles O27: RLC and RRC rotate a ring of eight bits by one, RAL and RAR one of nine. -/
theorem rotationsReturn : Obligations.RotationsReturn := by
  unfold Obligations.RotationsReturn
  intro run s
  have hrlc := iterate_regs_eq (f := run .rlc)
    (fun t => ⟨_, congrArg (rotated t · _) (rotateLeft_one_eq_append t.regs.a).symm⟩) iterate_rotateLeft_one_width s
  have hrrc := iterate_regs_eq (f := run .rrc)
    (fun t => ⟨_, congrArg (rotated t · _) (rotateRight_one_eq_append t.regs.a).symm⟩) iterate_rotateRight_one_width s
  obtain ⟨hralRegs, hralFlags⟩ := iterate_regs_flags_eq (f := run .ral)
    (fun t => ⟨_, _, rfl, (rotateLeft_one_carryRing t.flags.cy t.regs.a).symm⟩) iterate_rotateLeft_one_width s
  obtain ⟨hrarRegs, hrarFlags⟩ := iterate_regs_flags_eq (f := run .rar)
    (fun t => ⟨_, _, rfl, (rotateRight_one_carryRing t.flags.cy t.regs.a).symm⟩) iterate_rotateRight_one_width s
  exact ⟨hrlc, hrrc, hralRegs, hralFlags, hrarRegs, hrarFlags⟩

end Sys2Proof.Machine

/-! Jumps, calls, returns and restarts (`44_branch.md`): O28 to O32. -/

namespace Sys2Proof.Machine

/-! ## A condition decides between two next states (R185 item 1) -/

theorem ite_condHolds_of_holds {cc : Cond} {f : Flags} (h : ConditionHolds cc f) (taken passed : State) :
    (if condHolds cc f then taken else passed) = taken :=
  if_pos ((condHolds_iff cc f).mpr h)

theorem ite_condHolds_of_not_holds {cc : Cond} {f : Flags} (h : ¬ ConditionHolds cc f) (taken passed : State) :
    (if condHolds cc f then taken else passed) = passed :=
  if_neg (mt (condHolds_iff cc f).mp h)

/-! ## Jumps (R186, R187, R193) -/

/-- Settles O28: each is a write of PC; a condition chooses between the jump and the next instruction. -/
theorem jumps : Obligations.Jumps :=
  ⟨fun _ => ⟨isEncoding_opcodeAndWord rfl rfl, fun _ => rfl⟩,
    fun _ _ => ⟨isEncoding_opcodeAndWord rfl rfl, fun _ =>
      ⟨fun h => congrArg Host.Outcome.next (ite_condHolds_of_holds h _ _),
        fun h => congrArg Host.Outcome.next (ite_condHolds_of_not_holds h _ _)⟩⟩,
    isEncoding_encode (i := .pchl) rfl, fun _ => rfl⟩

/-! ## Calls, returns and restarts (R188 to R192) -/

/-- Settles O29: a call is the push of R185 and a jump. -/
theorem calls : Obligations.Calls :=
  ⟨fun _ => ⟨isEncoding_opcodeAndWord rfl rfl, fun s => ⟨_, push16_pushes s (s.pc + 3), rfl⟩⟩,
    fun _ _ => ⟨isEncoding_opcodeAndWord rfl rfl, fun s =>
      ⟨fun h => ⟨_, push16_pushes s (s.pc + 3), congrArg Host.Outcome.next (ite_condHolds_of_holds h _ _)⟩,
        fun h => congrArg Host.Outcome.next (ite_condHolds_of_not_holds h _ _)⟩⟩⟩

/-- Settles O30: a return is the pop of R185 and a jump to the word popped. -/
theorem returns : Obligations.Returns :=
  ⟨⟨isEncoding_encode (i := .ret) rfl, fun s => ⟨_, _, pop16_pops s, rfl⟩⟩,
    fun cc => ⟨isEncoding_encode (i := .rccc cc) rfl, fun s =>
      ⟨fun h => ⟨_, _, pop16_pops s, congrArg Host.Outcome.next (ite_condHolds_of_holds h _ _)⟩,
        fun h => congrArg Host.Outcome.next (ite_condHolds_of_not_holds h _ _)⟩⟩⟩

theorem restartAddress_eq (n : BitVec 3) : restartAddress n = n.setWidth 16 * 8 := by
  unfold restartAddress
  bv_omega

/-- Settles O31: RST n is a call of `8·n` that returns to the next instruction. -/
theorem restart : Obligations.Restart := by
  refine fun n => ⟨isEncoding_encode (i := .rst n) rfl, fun s => ⟨_, push16_pushes s (s.pc + 1), ?_⟩⟩
  rw [← restartAddress_eq]
  rfl

/-! ## RAM under a store, a read and the stack (R52, R57, R185) -/

/-- A store in RAM changes memory alone. -/
theorem write8_of_ram {s : State} {a : Word} (v : Byte) (h : s.kindAt a = .ram) :
    s.write8 a v = { s with mem := s.mem.set a.toNat v } := by
  simp only [State.write8, h]

/-- A store changes no cell but its own. -/
theorem write8_cell_other (s : State) {a b : Word} (v : Byte) (h : b ≠ a) : (s.write8 a v).cell b = s.cell b := by
  have hstored := write8_stores s a v
  unfold Stores at hstored
  split at hstored
  · exact hstored.2.1 b h
  · rw [hstored]
  · rw [hstored]
  · rw [hstored]
    rfl

/-- What an address holds outlives a store at another one. -/
theorem Holds.write8_other {s : State} {a b : Word} {w : Byte} (h : Holds s b w) (v : Byte) (hne : b ≠ a) :
    Holds (s.write8 a v) b w := by
  obtain ⟨hkind, hcell⟩ := h
  refine ⟨?_, (write8_cell_other s v hne).trans hcell⟩
  rwa [State.kindAt_congr (write8_params s a v)]

theorem read16_of_holds {s : State} {a : Word} {lo hi : Byte} (hlo : Holds s a lo) (hhi : Holds s (a + 1) hi) :
    s.read16 a = (joinBytes hi lo, s) := by
  simp only [State.read16, read8_of_holds s a lo hlo, read8_of_holds s (a + 1) hi hhi]

/-- A return to a word that the stack holds changes SP and PC alone. -/
theorem popPc_of_holds {s : State} {v : Word} (hlo : Holds s s.sp (loByte v)) (hhi : Holds s (s.sp + 1) (hiByte v)) :
    s.popPc = { s with sp := s.sp + 2, pc := v } := by
  simp only [State.popPc, State.pop16, State.jump, read16_of_holds hlo hhi, joinBytes_hi_lo]

/-- A push changes no cell but the two under the stack. -/
theorem push16_cell_other (s : State) (v : Word) {b : Word} (hhi : b ≠ s.sp - 1) (hlo : b ≠ s.sp - 2) :
    (s.push16 v).cell b = s.cell b :=
  (write8_cell_other _ (loByte v) hlo).trans (write8_cell_other s (hiByte v) hhi)

section RamStack

variable {s : State} (v : Word) (hhi : s.kindAt (s.sp - 1) = .ram) (hlo : s.kindAt (s.sp - 2) = .ram)

include hlo in
/-- The store of the high byte leaves SP - 2 RAM. -/
theorem kindAt_write8_low : (s.write8 (s.sp - 1) (hiByte v)).kindAt (s.sp - 2) = .ram :=
  (State.kindAt_congr (write8_params _ _ _) _).trans hlo

include hlo in
theorem push16_holds_low : Holds (s.push16 v) (s.sp - 2) (loByte v) :=
  write8_holds_of_ram (loByte v) (kindAt_write8_low v hlo)

include hhi in
theorem push16_holds_high : Holds (s.push16 v) (s.sp - 1) (hiByte v) :=
  (write8_holds_of_ram (hiByte v) hhi).write8_other (loByte v) (by bv_omega)

include hhi hlo in
/-- A push into RAM changes SP and memory alone. -/
theorem push16_of_ram : s.push16 v = { s with sp := s.sp - 2, mem := (s.push16 v).mem } := by
  rw [State.push16, write8_of_ram _ (kindAt_write8_low v hlo), write8_of_ram _ hhi]

include hhi hlo in
/-- A return right after a call finds the word that the call pushed, and SP is where it was. -/
theorem popPc_callTo_of_ram (target : Word) :
    (s.callTo v target).popPc = { s with pc := v, mem := (s.push16 v).mem } := by
  have hlow : Holds (s.callTo v target) (s.sp - 2) (loByte v) := push16_holds_low v hlo
  have hhigh : Holds (s.callTo v target) (s.sp - 2 + 1) (hiByte v) := by
    rw [show s.sp - 2 + 1 = s.sp - 1 by bv_omega]
    exact push16_holds_high v hhi
  rw [popPc_of_holds hlow hhigh, State.callTo, push16_of_ram v hhi hlo]
  simp only [State.jump, BitVec.sub_add_cancel]

end RamStack

/-- Settles O32: the pop finds the return address in the two RAM bytes that the call wrote. -/
theorem callThenReturn : Obligations.CallThenReturn := by
  intro s dir hhi hlo
  have hreturn := popPc_callTo_of_ram (s.pc + 3) hhi hlo dir
  refine ⟨_, _, rfl, rfl, congrArg Host.Outcome.next hreturn, rfl, fun b hb hb' => ?_⟩
  exact push16_cell_other s (s.pc + 3) hb hb'

end Sys2Proof.Machine

/-! Stack (`45_stack.md`): O33 to O36. -/

namespace Sys2Proof.Machine

/-! ## Pairs and HL on the stack (R201, R203, R205) -/

/-- Settles O33: PUSH rp is the push of R185, POP rp its pop and a write of the pair. -/
theorem pushAndPopPair : Obligations.PushAndPopPair :=
  ⟨fun _ hwf => ⟨isEncoding_encode hwf, fun s => ⟨_, push16_pushes s _, rfl⟩⟩,
    fun rp hwf => ⟨isEncoding_encode hwf, fun s =>
      ⟨_, _, pop16_pops s, next_advance (setPair_eq_withPair _ rp _) 1⟩⟩⟩

/-- Settles O36: one read of two bytes, two stores of the old H and L, and a write of HL. -/
theorem exchangeWithStack : Obligations.ExchangeWithStack :=
  ⟨isEncoding_encode (i := .xthl) rfl, fun s =>
    ⟨_, _, _, _, read16_loadsWord s s.sp, write8_stores _ (s.sp + 1) s.regs.h, write8_stores _ s.sp s.regs.l,
      next_advance (setPair_eq_withPair _ .h _) 1⟩⟩

/-! ## The flag byte as the low half of a word (R32, R204) -/

theorem getLsbD_loByte (v : Word) {i : Nat} (hi : i < 8) : (loByte v).getLsbD i = v.getLsbD i := by
  simp [loByte, hi]

/-- The flags that POP PSW loads, at their bits of the word popped. -/
theorem flagsOfByte_loByte (v : Word) : flagsOfByte (loByte v) =
    { s := v.getLsbD 7, z := v.getLsbD 6, ac := v.getLsbD 4, p := v.getLsbD 2, cy := v.getLsbD 0 } := by
  simp only [flagsOfByte, getLsbD_loByte, Nat.reduceLT]

/-! ## The draw between the two stores of PUSH PSW (R202) -/

/-- A store neither uses nor makes free values, so a draw behind it gives what a draw before it gives. -/
theorem write8_draw8 (s : State) (a : Word) (v : Byte) :
    (s.write8 a v).draw8 = (s.draw8.1, s.draw8.2.write8 a v) := by
  unfold State.write8
  rw [show s.draw8.2.kindAt a = s.kindAt a from rfl]
  cases s.kindAt a <;> rfl

/-- The word that PUSH PSW stores: A above the flag byte. -/
def State.psw (s : State) : Word := joinBytes s.regs.a (flagByte s.flags s.draw8.1)

theorem hiByte_psw (s : State) : hiByte s.psw = s.regs.a :=
  hiByte_joinBytes _ _

/-- The word that PUSH PSW stores gives the flags back, whatever its free bits are (R32). -/
theorem flagsOfByte_psw (s : State) : flagsOfByte (loByte s.psw) = s.flags := by
  rw [State.psw, loByte_joinBytes]
  exact flagsOfByte_of_shows _ _ (flagByte_shows _ _)

/-- PUSH PSW is the push of R185, with the free value drawn before it. -/
theorem exec_pushPsw (s : State) : exec .pushPsw s = .next ((s.draw8.2.push16 s.psw).advance 1) := by
  simp only [exec, execPushPsw, write8_draw8, State.push16, State.psw, hiByte_joinBytes, loByte_joinBytes,
    State.draw8_sp]

/-- Settles O34: PUSH PSW is two stores with a draw between them, POP PSW the pop of R185 and a write of A and of the
flags. -/
theorem pushAndPopPsw : Obligations.PushAndPopPsw := by
  refine ⟨⟨isEncoding_encode (i := .pushPsw) rfl, fun s => ?_⟩, isEncoding_encode (i := .popPsw) rfl, fun s => ?_⟩
  · have hhigh := write8_stores s (s.sp - 1) s.regs.a
    have hflags := flagByte_shows s.flags (s.write8 (s.sp - 1) s.regs.a).draw8.1
    refine ⟨_, _, _, hhigh, hflags, ?_, rfl⟩
    rw [← write8_draws s (s.sp - 1) s.regs.a]
    exact write8_stores _ _ _
  · refine ⟨_, _, pop16_pops s, ?_⟩
    rw [← flagsOfByte_loByte, ← hiByte_eq]
    rfl

/-! ## A pop behind a push into RAM (R185, R204) -/

/-- A pop right after a push finds the word that was pushed, and SP is where it was; PC does not matter. Said through
the return right after a call, which is the same pop with the word popped written to PC. -/
theorem pop16_push16_of_ram {s : State} (v target : Word) (hhi : s.kindAt (s.sp - 1) = .ram)
    (hlo : s.kindAt (s.sp - 2) = .ram) :
    ((s.push16 v).jump target).pop16 = (v, { s with pc := target, mem := (s.push16 v).mem }) := by
  have hreturn := popPc_callTo_of_ram v hhi hlo target
  have hword : ((s.push16 v).jump target).pop16.1 = v := congrArg State.pc hreturn
  have hstate : ((s.push16 v).jump target).pop16.2 = { s with pc := target, mem := (s.push16 v).mem } := calc
    _ = (s.callTo v target).popPc.jump ((s.push16 v).jump target).pop16.2.pc := rfl
    _ = (s.callTo v target).popPc.jump target := by rw [pop16_pc, State.jump_pc]
    _ = _ := by rw [hreturn]; rfl
  exact Prod.ext hword hstate

/-- POP PSW loads A and the flags from the word popped. -/
theorem exec_popPsw_of_pop16 {s t : State} {v : Word} (h : s.pop16 = (v, t)) :
    exec .popPsw s = .next (((t.setFlags (flagsOfByte (loByte v))).setA (hiByte v)).advance 1) := by
  simp only [exec, execPopPsw, h]

/-- Settles O35: the pop finds the word that PUSH PSW stored, and that word shows A and the flags. -/
theorem pswRoundTrip : Obligations.PswRoundTrip := by
  intro s hhi hlo
  have hpop := exec_popPsw_of_pop16 (pop16_push16_of_ram (s := s.draw8.2) s.psw (s.pc + 1) hhi hlo)
  rw [flagsOfByte_psw, hiByte_psw] at hpop
  have hpush : exec .pushPsw s = .next ((s.draw8.2.push16 s.psw).jump (s.pc + 1)) := by
    rw [exec_pushPsw, State.advance, push16_pc]
    rfl
  refine ⟨_, _, hpush, hpop, ?_, fun b hb hb' => push16_cell_other s.draw8.2 s.psw hb hb'⟩
  rw [show s.pc + 2 = s.pc + 1 + 1 by bv_omega]
  rfl

end Sys2Proof.Machine

/-! Input and output (`46_io.md`): O37. -/

namespace Sys2Proof.Machine

/-- An answer of the environment is no event of its own: what is recorded is the access that asked for it (R56). -/
@[simp] theorem envReply_history (s : State) : s.envReply.2.history = s.history := by rw [envReply_frame]

/-- A port read whose value goes to A writes A and appends its event to the history of before the read (R211). -/
theorem ioRead_setA (s : State) (port : Byte) :
    (s.ioRead port).2.setA (s.ioRead port).1 =
      { s.envReply.2.withA s.envReply.1 with history := s.history ++ [.portRead port s.envReply.1] } := by
  rw [← envReply_history s]
  rfl

/-- Settles O37: IN is a port read into A, answered as R56 says; OUT appends the event with A and leaves the rest. -/
theorem inputAndOutput : Obligations.InputAndOutput :=
  ⟨fun port => ⟨isEncoding_encode (i := .inPort port) rfl, fun s =>
      ⟨_, _, envReply_answers s, next_advance (ioRead_setA s port) 2⟩⟩,
    fun port => ⟨isEncoding_encode (i := .outPort port) rfl, fun s =>
      next_advance (ioWrite_eq s port s.regs.a) 2⟩⟩

end Sys2Proof.Machine

/-! Processor control (`47_control.md`) and the halted machine: O38 to O40, O46. -/

namespace Sys2Proof.Machine

/-! ## EI, DI, HLT and NOP (R216 to R219) -/

/-- Settles O38: each of the four is its change of the control state, if any, and the step of PC. -/
theorem enableDisableHaltNop : Obligations.EnableDisableHaltNop :=
  ⟨isEncoding_encode (i := .ei) rfl, isEncoding_encode (i := .di) rfl, isEncoding_encode (i := .hlt) rfl,
    isEncoding_encode (i := .nop) rfl, fun _ =>
      ⟨next_advance rfl 1, next_advance rfl 1, next_advance rfl 1, next_advance rfl 1⟩⟩

/-! ## RIM (R220) -/

theorem serialIn_fst_of_sid {s : State} {level : Bool} (h : s.pins.sid = some level) : s.serialIn.1 = level := by
  simp only [State.serialIn, h]

/-- Reading the serial input draws a free value exactly where the environment leaves the level open (R36, U8). -/
theorem serialIn_snd (s : State) :
    s.serialIn.2 = { s with draws := if s.pins.sid = none then s.draws + 1 else s.draws } := by
  unfold State.serialIn
  cases h : s.pins.sid with
  | none => rfl
  | some level => rfl

/-- The state RIM leaves, the serial level and the draw written out. -/
theorem exec_rim (s : State) : exec .rim s = .next (State.after { s.withA (rimByte s.serialIn.1 s.pins s.ctl) with
    ctl := { s.ctl with trapPendingRim := false }
    draws := if s.pins.sid = none then s.draws + 1 else s.draws } 1) := by
  simp only [exec, execRim, serialIn_snd]
  exact next_advance rfl 1

/-- Settles O39: bit by bit, the byte that `exec_rim` puts into A. -/
theorem readInterruptMask : Obligations.ReadInterruptMask := by
  refine ⟨isEncoding_encode (i := .rim) rfl, fun s => ?_⟩
  obtain ⟨h7, h6, h5, h4, h3, h2, h1, h0⟩ := byteOfBits_bits s.serialIn.1 s.ctl.r75 s.pins.rst65 s.pins.rst55
    s.ctl.reportedIe s.ctl.m75 s.ctl.m65 s.ctl.m55
  exact ⟨rimByte s.serialIn.1 s.pins s.ctl, fun _ hsid => h7.trans (serialIn_fst_of_sid hsid), h6, h5, h4, h3, h2, h1,
    h0, exec_rim s⟩

/-! ## SIM (R221) -/

/-- What the record of SOD leaves after a new command: the programmed control state, and an event where SOD changed. -/
theorem program_recordSod (s : State) (cmd : Byte) :
    ({ s with ctl := s.ctl.program cmd } : State).recordSod s.ctl.sod =
      { s with
        ctl := s.ctl.program cmd
        history := if (s.ctl.program cmd).sod = s.ctl.sod then s.history
          else s.history ++ [.serialOut (s.ctl.program cmd).sod] } := rfl

/-- Settles O40: `Control.program` writes the three parts, each by its enable bit, and SOD is compared with its level of
before. -/
theorem setInterruptMask : Obligations.SetInterruptMask :=
  ⟨isEncoding_encode (i := .sim) rfl, fun s => next_advance (program_recordSod s s.regs.a) 1⟩

/-! ## The halted machine (R218, R246, R257) -/

/-- A boundary that takes no reset and no request is all that a halted machine's step is. -/
theorem step_of_halted {s : State} (hhalted : s.ctl.halted = true) (hreset : s.atBoundary.pins.reset = false)
    (hnone : chooseRequest s.atBoundary.pins s.atBoundary.ctl s.ctl.eiDelay = none) : step s = .next s.atBoundary := by
  have hstill : s.atBoundary.ctl.halted = true := hhalted
  simp only [step, hreset, hnone, hstill, if_true, Bool.false_eq_true, if_false]

/-- Settles O46: the boundary alone leaves the machine halted; and of what a step can be, a reset and an interrupt entry
alone end a halt. -/
theorem haltedUntilInterruptOrReset : Obligations.HaltedUntilInterruptOrReset := by
  intro s hhalted
  constructor
  · intro hreset hnone
    exact ⟨s.atBoundary, step_of_halted hhalted hreset hnone, hhalted, rfl⟩
  · intro t ht hrunning
    obtain ⟨hreset, -⟩ | ⟨k, -, hk, -⟩ | ⟨-, -, -, rfl⟩ | ⟨⟨-, -, hawake⟩, -⟩ := step_cases ht
    · exact .inl hreset
    · exact .inr (hk ▸ Option.some_ne_none k)
    · exact nomatch hhalted.symm.trans hrunning
    · exact nomatch hhalted.symm.trans hawake

end Sys2Proof.Machine

/-! Interrupts (`60_exceptions.md`) and the writers of the control state: O41 to O45, O47, O52 and O54. -/

namespace Sys2Proof.Machine

/-! ## The request a boundary takes (R234, R235, R238 step 3) -/

theorem chooseRequest_of_trap {p : Pins} (h : p.trap = true) (c : Control) (blocked : Bool) :
    chooseRequest p c blocked = some .trap := by
  simp only [chooseRequest, h, if_true]

/-- With INTE 0, or at a boundary that `ei_delay` closes, TRAP alone is taken (R239, R245). -/
theorem chooseRequest_of_closed {c : Control} {blocked : Bool} (h : blocked = true ∨ c.inte = false) (p : Pins) :
    chooseRequest p c blocked = if p.trap then some .trap else none := by
  have hclosed : (blocked || !c.inte) = true := by simpa using h
  simp only [chooseRequest, hclosed, if_true]

/-- At an open boundary with INTE 1 and no TRAP, the first of the maskable requests that qualifies (R235). -/
theorem chooseRequest_of_open {p : Pins} {c : Control} (htrap : p.trap = false) (hinte : c.inte = true) :
    chooseRequest p c false =
      if c.r75 = true ∧ c.m75 = false then some .rst75
      else if p.rst65 = true ∧ c.m65 = false then some .rst65
      else if p.rst55 = true ∧ c.m55 = false then some .rst55
      else if p.intr then some .intr
      else none := by
  simp [chooseRequest, htrap, hinte]

/-- Settles O41: TRAP decides first, then whether the boundary is open, then the four maskable requests in their
order. -/
theorem interruptPriority : Obligations.InterruptPriority := by
  intro p c blocked maskable want75 want65 want55
  cases htrap : p.trap with
  | true => simp [maskable, chooseRequest_of_trap htrap, htrap]
  | false =>
    by_cases hclosed : blocked = true ∨ c.inte = false
    · have hmaskable : ¬ maskable := by
        rintro ⟨-, hblocked, hinte⟩
        exact hclosed.elim (nomatch hblocked.symm.trans ·) (nomatch hinte.symm.trans ·)
      simp [chooseRequest_of_closed hclosed, htrap, hmaskable]
    · obtain ⟨rfl, hinte⟩ : blocked = false ∧ c.inte = true := by simpa using hclosed
      have hmaskable : maskable := ⟨htrap, rfl, hinte⟩
      have hchosen : chooseRequest p c false = if want75 then some .rst75 else if want65 then some .rst65
          else if want55 then some .rst55 else if p.intr then some .intr else none :=
        chooseRequest_of_open htrap hinte
      rw [hchosen]
      by_cases h75 : want75
      · simp [h75, hmaskable]
      by_cases h65 : want65
      · simp [h75, h65, hmaskable]
      by_cases h55 : want55
      · simp [h75, h65, h55, hmaskable]
      cases hintr : p.intr <;> simp [h75, h65, h55, hmaskable]

/-! ## Interrupt entry (R238 step 5, R240) -/

/-- The machine just after entering the interrupt of `k` at `target`: the control state of entry, and a call that
returns to PC, not advanced. -/
def State.entered (s : State) (k : Source) (target : Word) : State :=
  ({ s with ctl := entryControl k s.ctl } : State).callTo s.pc target

theorem entered_pushes (s : State) (k : Source) (target : Word) :
    ∃ t, Pushes { s with ctl := entryControl k s.ctl } s.pc t ∧ s.entered k target = { t with pc := target } :=
  ⟨_, push16_pushes _ _, rfl⟩

@[simp] theorem entered_ctl (s : State) (k : Source) (target : Word) :
    (s.entered k target).ctl = entryControl k s.ctl :=
  callTo_ctl _ _ _

theorem takeInterrupt_of_vector {k : Source} {vector : Word} (h : vectorOf k = some vector) (s : State) :
    takeInterrupt k s = .next (s.entered k vector) := by
  cases k with
  | intr => cases h
  | trap | rst75 | rst65 | rst55 =>
    obtain rfl := Option.some.inj h
    rfl

theorem takeInterrupt_intr_of_target {s : State} {target : Word} (h : intrTarget s.pins.intrInsn = some target) :
    takeInterrupt .intr s = .next (s.entered .intr target) := by
  simp only [takeInterrupt, h]
  rfl

theorem takeInterrupt_intr_of_no_target {s : State} (h : intrTarget s.pins.intrInsn = none) :
    takeInterrupt .intr s = .refused (.intrInstruction s.pins.intrInsn) := by
  simp only [takeInterrupt, h]

/-- A request that is taken and not refused enters its own interrupt, somewhere. -/
theorem takeInterrupt_next_entered {k : Source} {s t : State} (h : takeInterrupt k s = .next t) :
    ∃ target, t = s.entered k target := by
  cases k with
  | trap | rst75 | rst65 | rst55 => exact ⟨_, (Host.Outcome.next.inj h).symm⟩
  | intr =>
    cases htarget : intrTarget s.pins.intrInsn with
    | none => cases (takeInterrupt_intr_of_no_target htarget).symm.trans h
    | some target =>
      exact ⟨target, (Host.Outcome.next.inj ((takeInterrupt_intr_of_target htarget).symm.trans h)).symm⟩

/-- A boundary without reset that chooses a request takes it, halted or not (R238, R246). -/
theorem step_of_chosen {s : State} {k : Source} (hreset : s.atBoundary.pins.reset = false)
    (hk : chooseRequest s.atBoundary.pins s.atBoundary.ctl s.ctl.eiDelay = some k) :
    step s = takeInterrupt k s.atBoundary := by
  simp only [step, hreset, hk, Bool.false_eq_true, if_false]

/-- Settles O42: a source with a vector enters its interrupt there. -/
theorem vectoredInterruptEntry : Obligations.VectoredInterruptEntry := by
  intro s k vector hreset hk hvector
  obtain ⟨t, hpush, hentered⟩ := entered_pushes s.atBoundary k vector
  refine ⟨t, hpush, ?_⟩
  rw [step_of_chosen hreset hk, takeInterrupt_of_vector hvector, hentered]

/-! ## INTR (R240) -/

theorem intrTarget_rst (n : BitVec 3) : intrTarget [packOpcode 0b11 n 0b111] = some (n.setWidth 16 * 8) := by
  have hd : decode [packOpcode 0b11 n 0b111] = .ok (.rst n, []) := isEncoding_encode (i := .rst n) rfl []
  simp only [intrTarget, hd, restartAddress_eq]

theorem intrTarget_call (dir : Word) : intrTarget (opcodeAndWord 0xCD dir) = some dir := by
  have hencoding : IsEncoding (opcodeAndWord 0xCD dir) (.call dir) := isEncoding_opcodeAndWord rfl rfl
  have hd : decode (opcodeAndWord 0xCD dir) = .ok (.call dir, []) := hencoding []
  simp only [intrTarget, hd]

/-- Bytes with a target are exactly one RST n or one CALL dir: by O2 nothing else decodes to these. -/
theorem intrTarget_eq_some_cases {bytes : List Byte} {target : Word} (h : intrTarget bytes = some target) :
    (∃ n : BitVec 3, bytes = [packOpcode 0b11 n 0b111]) ∨ ∃ dir : Word, bytes = opcodeAndWord 0xCD dir := by
  simp only [intrTarget] at h
  split at h
  · next n hd =>
    obtain ⟨-, rfl⟩ := encodeOfDecode _ _ _ hd
    exact .inl ⟨n, rfl⟩
  · next dir hd =>
    obtain ⟨-, rfl⟩ := encodeOfDecode _ _ _ hd
    exact .inr ⟨dir, (List.append_nil _).trans (withWord_eq_opcodeAndWord 0xCD dir)⟩
  · cases h

/-- A step that takes INTR pushes PC and goes to the target of the bytes supplied. -/
theorem step_intr_of_target {s : State} {target : Word} (hreset : s.atBoundary.pins.reset = false)
    (hk : chooseRequest s.atBoundary.pins s.atBoundary.ctl s.ctl.eiDelay = some .intr)
    (htarget : intrTarget s.atBoundary.pins.intrInsn = some target) :
    ∃ t, Pushes { s.atBoundary with ctl := entryControl .intr s.atBoundary.ctl } s.pc t ∧
      step s = .next { t with pc := target } := by
  obtain ⟨t, hpush, hentered⟩ := entered_pushes s.atBoundary .intr target
  refine ⟨t, hpush, ?_⟩
  rw [step_of_chosen hreset hk, takeInterrupt_intr_of_target htarget, hentered]

/-- Settles O43: RST n and CALL dir have a target, and no other list of bytes has one. -/
theorem intrAcknowledge : Obligations.IntrAcknowledge := by
  intro s hreset hk entered bytes
  refine ⟨fun n hbytes => ?_, fun dir hbytes => ?_, fun hrst hcall => ?_⟩
  · exact step_intr_of_target hreset hk ((congrArg intrTarget hbytes).trans (intrTarget_rst n))
  · exact step_intr_of_target hreset hk ((congrArg intrTarget hbytes).trans (intrTarget_call dir))
  · rw [step_of_chosen hreset hk]
    refine takeInterrupt_intr_of_no_target (Option.eq_none_iff_forall_ne_some.mpr fun target htarget => ?_)
    obtain ⟨n, hn⟩ | ⟨dir, hdir⟩ := intrTarget_eq_some_cases htarget
    · exact hrst n hn
    · exact hcall dir hdir

/-! ## TRAP and RIM (R239, R220) -/

/-- RIM shows INTE, or the one kept by TRAP entry, in bit 3 of A, and uses up the TRAP report. -/
theorem exec_rim_reportedIe (s : State) :
    ∃ t, exec .rim s = .next t ∧ t.regs.a.getLsbD 3 = s.ctl.reportedIe ∧
      t.ctl = { s.ctl with trapPendingRim := false } := by
  obtain ⟨-, -, -, -, h3, -, -, -⟩ := byteOfBits_bits s.serialIn.1 s.ctl.r75 s.pins.rst65 s.pins.rst55
    s.ctl.reportedIe s.ctl.m75 s.ctl.m65 s.ctl.m55
  exact ⟨_, exec_rim s, h3, rfl⟩

/-- Settles O44: TRAP entry keeps INTE in `trap_ie` for one RIM, which uses the report up. -/
theorem trapReportsOldInte : Obligations.TrapReportsOldInte := by
  intro s hreset htrap
  have hstep : step s = .next (s.atBoundary.entered .trap 0x0024) :=
    (step_of_chosen hreset (chooseRequest_of_trap htrap _ _)).trans (takeInterrupt_of_vector rfl _)
  have hctl := entered_ctl s.atBoundary .trap 0x0024
  obtain ⟨u, hu, huA, huctl⟩ := exec_rim_reportedIe (s.atBoundary.entered .trap 0x0024)
  obtain ⟨w, hw, hwA, -⟩ := exec_rim_reportedIe u
  refine ⟨_, u, w, hstep, rfl, ?_, hu, ?_, hw, ?_⟩
  · rw [hctl]; rfl
  · rw [huA, hctl]; rfl
  · rw [hwA, huctl]; rfl

/-! ## The delay of EI (R245) -/

/-- Settles O45: `ei_delay` closes one boundary, which uses it up and leaves INTE 1. -/
theorem eiDelaysOneBoundary : Obligations.EiDelaysOneBoundary := by
  refine fun s => ⟨_, rfl, rfl, fun hno => ?_, fun htrap => chooseRequest_of_trap htrap _ _, rfl, rfl, _, rfl, rfl⟩
  exact (chooseRequest_of_closed (.inl rfl) _).trans (if_neg (ne_true_of_eq_false hno))

/-! ## What instructions and steps make of the control state (R33 to R38) -/

/-- The control state after an instruction that starts with `a` in A: only EI, DI, HLT, RIM and SIM write it. -/
def controlAfter (i : Instr) (a : Byte) (c : Control) : Control :=
  match i with
  | .ei => { c with inte := true, eiDelay := true }
  | .di => { c with inte := false, eiDelay := false }
  | .hlt => { c with halted := true }
  | .rim => { c with trapPendingRim := false }
  | .sim => c.program a
  | _ => c

theorem exec_ctl {i : Instr} {s t : State} (h : exec i s = .next t) : t.ctl = controlAfter i s.regs.a s.ctl := by
  cases i with
  | ei | di | hlt | sim =>
    obtain rfl := Host.Outcome.next.inj h
    rfl
  | rim =>
    obtain rfl := Host.Outcome.next.inj ((exec_rim s).symm.trans h)
    rfl
  | _ => exact exec_ctl_of_not_writesControl h rfl

section ControlAfter

variable {i : Instr} {a : Byte} {c : Control}

theorem eq_ei_of_controlAfter_inte (hc : c.inte = false) (h : (controlAfter i a c).inte = true) : i = .ei := by
  cases i with
  | ei => rfl
  | di => exact nomatch h
  | _ => exact nomatch hc.symm.trans h

theorem eq_di_of_controlAfter_inte (hc : c.inte = true) (h : (controlAfter i a c).inte = false) : i = .di := by
  cases i with
  | di => rfl
  | ei => exact nomatch h
  | _ => exact nomatch hc.symm.trans h

theorem eq_sim_of_controlAfter_masks (h : ((controlAfter i a c).m75, (controlAfter i a c).m65,
    (controlAfter i a c).m55) ≠ (c.m75, c.m65, c.m55)) : i = .sim := by
  cases i with
  | sim => rfl
  | _ => exact absurd rfl h

/-- The latch falls by a SIM with bit 4 of A alone (R221). -/
theorem eq_sim_of_controlAfter_r75 (hc : c.r75 = true) (h : (controlAfter i a c).r75 = false) :
    i = .sim ∧ a.getLsbD 4 = true := by
  cases i with
  | sim =>
    by_cases h4 : a.getLsbD 4 = true
    · exact ⟨rfl, h4⟩
    · have hkept : (c.program a).r75 = c.r75 := if_neg h4
      exact nomatch hc.symm.trans (hkept.symm.trans h)
  | _ => exact nomatch hc.symm.trans h

end ControlAfter

/-- RST 7.5 is the one source whose entry clears the latch (R241). -/
theorem eq_rst75_of_entryControl_r75 {k : Source} {c : Control} (hc : c.r75 = true)
    (h : (entryControl k c).r75 = false) : k = .rst75 := by
  cases k with
  | rst75 => rfl
  | trap | rst65 | rst55 | intr => exact nomatch hc.symm.trans h

theorem entryControl_inte (k : Source) (c : Control) : (entryControl k c).inte = false := by
  cases k <;> rfl

theorem entryControl_masks (k : Source) (c : Control) :
    ((entryControl k c).m75, (entryControl k c).m65, (entryControl k c).m55) = (c.m75, c.m65, c.m55) := by
  cases k <;> rfl

/-- What one step can make of the control state, when it answers a next state: that of reset, that of an interrupt
entry, that of the boundary alone, or what an instruction makes of the boundary's. -/
theorem step_ctl_cases {s t : State} (h : step s = .next t) :
    (s.atBoundary.pins.reset = true ∧ t.ctl = resetControl) ∨
    (∃ k, chooseRequest s.atBoundary.pins s.atBoundary.ctl s.ctl.eiDelay = some k ∧
      t.ctl = entryControl k s.atBoundary.ctl) ∨
    t.ctl = s.atBoundary.ctl ∨
    (s.executesNext ∧ ∃ i u, fetch s.atBoundary = .ok (i, u) ∧
      t.ctl = controlAfter i s.regs.a s.atBoundary.ctl) := by
  obtain ⟨hreset, rfl⟩ | ⟨k, -, hk, htake⟩ | ⟨-, -, -, rfl⟩ | ⟨hruns, i, u, hf, he⟩ := step_cases h
  · exact .inl ⟨hreset, rfl⟩
  · obtain ⟨target, rfl⟩ := takeInterrupt_next_entered htake
    exact .inr (.inl ⟨k, hk, entered_ctl _ _ _⟩)
  · exact .inr (.inr (.inl rfl))
  · obtain ⟨hregs, -, -, -, hctl, -, -, -, -⟩ := fetch_frame hf
    refine .inr (.inr (.inr ⟨hruns, i, u, hf, ?_⟩))
    rw [exec_ctl he, hregs, hctl]
    rfl

/-- Settles O47: the boundary joins the edge to the latch; of what a step can make of the control state, reset, the
entry of RST 7.5 and SIM alone clear it. -/
theorem rst75Latch : Obligations.Rst75Latch := by
  constructor
  · intro s
    exact Bool.or_eq_true_iff
  · intro s t h hset hclear
    obtain ⟨hreset, -⟩ | ⟨k, hk, hctl⟩ | hctl | ⟨-, i, u, hf, hctl⟩ := step_ctl_cases h
    · exact .inl hreset
    · rw [hctl] at hclear
      obtain rfl := eq_rst75_of_entryControl_r75 hset hclear
      exact .inr (.inl hk)
    · rw [hctl] at hclear
      exact nomatch hset.symm.trans hclear
    · rw [hctl] at hclear
      obtain ⟨rfl, h4⟩ := eq_sim_of_controlAfter_r75 hset hclear
      exact .inr (.inr ⟨h4, u, hf⟩)

/-- Settles O54: the boundary writes neither INTE nor a mask, and what a step then makes of the control state changes
them by EI, DI, SIM, reset and interrupt entry alone. -/
theorem interruptEnableWriters : Obligations.InterruptEnableWriters := by
  intro s t h ran
  obtain ⟨hreset, hctl⟩ | ⟨k, hk, hctl⟩ | hctl | ⟨hruns, i, u, hf, hctl⟩ := step_ctl_cases h
  · rw [hctl]
    exact ⟨nofun, fun _ _ => .inr (.inl hreset), fun _ => .inr hreset⟩
  · rw [hctl, entryControl_inte, entryControl_masks]
    exact ⟨nofun, fun _ _ => .inr (.inr (hk ▸ Option.some_ne_none k)), fun hmasks => absurd rfl hmasks⟩
  · rw [hctl]
    exact ⟨fun hoff hon => (nomatch hoff.symm.trans hon), fun hon hoff => (nomatch hon.symm.trans hoff),
      fun hmasks => absurd rfl hmasks⟩
  · have hran : ran i := ⟨hruns, u, hf⟩
    rw [hctl]
    exact ⟨fun hoff hon => eq_ei_of_controlAfter_inte (c := s.atBoundary.ctl) hoff hon ▸ hran,
      fun hon hoff => .inl (eq_di_of_controlAfter_inte (c := s.atBoundary.ctl) hon hoff ▸ hran),
      fun hmasks => .inl (eq_sim_of_controlAfter_masks (c := s.atBoundary.ctl) hmasks ▸ hran)⟩

/-- Settles O52: every meaning ends in a next state. -/
theorem everyInstructionCompletes : Obligations.EveryInstructionCompletes :=
  exec_eq_next

end Sys2Proof.Machine

/-! Reset (`70_reset_and_hazards.md`): O48 and O51. -/

namespace Sys2Proof.Machine

/-- A filter by the address alone drops every byte of an address that it does not keep, the shadowed ones too. -/
theorem Memory.get_filter_of_dropped (m : Memory) (q : Nat → Bool) (a : Nat) (h : q a = false) :
    Memory.get (m.filter fun cell => q cell.1) a = none := by
  induction m with
  | nil => rfl
  | cons kw rest ih =>
    obtain ⟨k, w⟩ := kw
    by_cases hq : q k = true
    · have hk : a ≠ k := by
        rintro rfl
        exact nomatch h.symm.trans hq
      simp [hq, Memory.get, hk, ih]
    · simp [hq, ih]

/-- Reset gives no cell a value: ROM keeps what it holds, and every other cell loses it (R262, log 13). -/
theorem onReset_cell_eq_some {s : State} {a : Word} {v : Byte} (h : s.onReset.cell a = some v) :
    s.cell a = some v := by
  by_cases hrom : s.kindAt a = .rom
  · rw [← (onReset_keeps s).rom a hrom]
    exact h
  · have hdropped : (kindIn s.params.memMap (BitVec.ofNat 16 a.toNat) == .rom) = false := by
      rw [BitVec.ofNat_toNat, BitVec.setWidth_eq]
      exact beq_false_of_ne hrom
    have hnone : s.onReset.cell a = none := Memory.get_filter_of_dropped s.mem
      (fun n => kindIn s.params.memMap (BitVec.ofNat 16 n) == .rom) a.toNat hdropped
    exact nomatch hnone.symm.trans h

theorem step_of_reset {s : State} (h : s.atBoundary.pins.reset = true) : step s = .next s.atBoundary.onReset := by
  simp only [step, h, if_true]

/-- Settles O48: the step is `onReset` at the boundary, which differs from `s` in the environment's samples, the latch
and `ei_delay` alone. -/
theorem resetInput : Obligations.ResetInput := by
  intro s hreset
  exact ⟨s.atBoundary.onReset, step_of_reset hreset, rfl, rfl, rfl, State.onReset_history s.atBoundary,
    fun _ _ h => onReset_cell_eq_some h⟩

/-- Settles O51: the values are those of `State.reset`, and with INTE 0 the first boundary takes TRAP alone. -/
theorem resetValues : Obligations.ResetValues :=
  ⟨rfl, rfl, rfl, rfl, rfl, rfl, rfl, rfl, rfl, rfl, rfl, fun _ => rfl,
    fun _ => chooseRequest_of_closed (.inr rfl) _⟩

end Sys2Proof.Machine
